-- ==== Sys2Proof/Word.lean ====
section
/-! DEFINITION. The word types of the machine (00_scope.md R6, R8) and the names of register numbers. -/

namespace Sys2Proof

/-- A 4-bit field of an instruction word (00_scope.md R15 *Nibble*). -/
abbrev Nibble := BitVec 4

/-- A register, a timer or a memory cell: 8 bits (R6). -/
abbrev Byte := BitVec 8

/-- The 12-bit constant nnn (30_encoding.md R81). -/
abbrev Addr12 := BitVec 12

/-- I, PC, a stack slot, an instruction word: 16 bits (R6, R23, R24). -/
abbrev Word := BitVec 16

/-- The number of a general register, V0 to VF (10_state.md R21), and of a key (R29). -/
abbrev Reg := Fin 16

/-- VF, the register the flag writers overwrite (10_state.md R22). -/
abbrev VF : Reg := 15

end Sys2Proof
end

