-- ==== Sys2Proof/Syntax.lean ====
section
/-! DEFINITION. The instructions: one constructor per row of spec/opcode_table.json, in the table's order.
Operands: x and y are register numbers, n a nibble, nn a byte, nnn a 12-bit constant (30_encoding.md R81, R92). -/

namespace Sys2Proof

/-- The 34 instructions of 30_encoding.md R83 and the Unknown descriptor of R86. The opcode table gives Unknown one
row per family that has unknown words, so there are six constructors, each carrying the raw 16-bit word. -/
inductive Instr where
  /-- 00E0, R161 -/
  | cls
  /-- 00EE, R103 -/
  | ret
  /-- 1nnn, R101 -/
  | jp (nnn : Addr12)
  /-- 2nnn, R102 -/
  | call (nnn : Addr12)
  /-- 3xnn, R104 -/
  | seImm (x : Reg) (nn : Byte)
  /-- 4xnn, R105 -/
  | sneImm (x : Reg) (nn : Byte)
  /-- 5xy0, R106 -/
  | seReg (x y : Reg)
  /-- 6xnn, R121 -/
  | ldImm (x : Reg) (nn : Byte)
  /-- 7xnn, R122 -/
  | addImm (x : Reg) (nn : Byte)
  /-- 8xy0, R123 -/
  | ldReg (x y : Reg)
  /-- 8xy1, R124 -/
  | orReg (x y : Reg)
  /-- 8xy2, R125 -/
  | andReg (x y : Reg)
  /-- 8xy3, R126 -/
  | xorReg (x y : Reg)
  /-- 8xy4, R127 -/
  | addReg (x y : Reg)
  /-- 8xy5, R128 -/
  | sub (x y : Reg)
  /-- 8xy6, R129 -/
  | shr (x y : Reg)
  /-- 8xy7, R130 -/
  | subn (x y : Reg)
  /-- 8xyE, R131 -/
  | shl (x y : Reg)
  /-- 9xy0, R107 -/
  | sneReg (x y : Reg)
  /-- Annn, R150 -/
  | ldI (nnn : Addr12)
  /-- Bnnn, R151 -/
  | jpV0 (nnn : Addr12)
  /-- Cxnn, R153 -/
  | rnd (x : Reg) (nn : Byte)
  /-- Dxyn, R162 -/
  | drw (x y : Reg) (n : Nibble)
  /-- Ex9E, R181 -/
  | skp (x : Reg)
  /-- ExA1, R182 -/
  | sknp (x : Reg)
  /-- Fx07, R190 -/
  | ldVxDt (x : Reg)
  /-- Fx0A, R183 -/
  | ldVxK (x : Reg)
  /-- Fx15, R191 -/
  | ldDtVx (x : Reg)
  /-- Fx18, R192 -/
  | ldStVx (x : Reg)
  /-- Fx1E, R193 -/
  | addIVx (x : Reg)
  /-- Fx29, R194 -/
  | ldFVx (x : Reg)
  /-- Fx33, R195 -/
  | ldBVx (x : Reg)
  /-- Fx55, R196 -/
  | ldMemVx (x : Reg)
  /-- Fx65, R197 -/
  | ldVxMem (x : Reg)
  /-- 0nnn other than 00E0 and 00EE, R210 -/
  | unknown0 (w : Word)
  /-- 5xyN with N ≠ 0, R210 -/
  | unknown5 (w : Word)
  /-- 8xyN with N in 8, 9, A, B, C, D, F, R210 -/
  | unknown8 (w : Word)
  /-- 9xyN with N ≠ 0, R210 -/
  | unknown9 (w : Word)
  /-- ExNN with NN not 9E or A1, R210 -/
  | unknownE (w : Word)
  /-- FxNN with NN not 07, 0A, 15, 18, 1E, 29, 33, 55 or 65, R210 -/
  | unknownF (w : Word)
  deriving DecidableEq, Repr

end Sys2Proof
end

