-- ==== Sys2Proof/WellFormed.lean ====
section
/-! DEFINITION. Which terms of Instr stand for a word: an Unknown carries a word of its own family's part of the
Unknown set (30_encoding.md R86); every other constructor's operands are bounded by their types. -/

namespace Sys2Proof

/-- The Unknown set of R86, family by family, written from its own words and not from the decoder's table. -/
def inUnknownSet (family : Nat) (w : Nat) : Bool :=
  w / 4096 == family &&
  match family with
  | 0x0 => w != 0x00E0 && w != 0x00EE
  | 0x5 => w % 16 != 0
  | 0x8 => [0x8, 0x9, 0xA, 0xB, 0xC, 0xD, 0xF].contains (w % 16)
  | 0x9 => w % 16 != 0
  | 0xE => !([0x9E, 0xA1].contains (w % 256))
  | 0xF => !([0x07, 0x0A, 0x15, 0x18, 0x1E, 0x29, 0x33, 0x55, 0x65].contains (w % 256))
  | _ => false

/-- An instruction is well formed when it is the meaning of some word. -/
def Instr.wellFormed : Instr → Bool
  | .unknown0 w => inUnknownSet 0x0 w.toNat
  | .unknown5 w => inUnknownSet 0x5 w.toNat
  | .unknown8 w => inUnknownSet 0x8 w.toNat
  | .unknown9 w => inUnknownSet 0x9 w.toNat
  | .unknownE w => inUnknownSet 0xE w.toNat
  | .unknownF w => inUnknownSet 0xF w.toNat
  | .cls | .ret => true
  | .jp _ | .call _ | .ldI _ | .jpV0 _ => true
  | .seImm _ _ | .sneImm _ _ | .ldImm _ _ | .addImm _ _ | .rnd _ _ => true
  | .seReg _ _ | .sneReg _ _ | .ldReg _ _ | .orReg _ _ | .andReg _ _ | .xorReg _ _ => true
  | .addReg _ _ | .sub _ _ | .shr _ _ | .subn _ _ | .shl _ _ => true
  | .drw _ _ _ => true
  | .skp _ | .sknp _ | .ldVxDt _ | .ldVxK _ | .ldDtVx _ | .ldStVx _ | .addIVx _ | .ldFVx _ => true
  | .ldBVx _ | .ldMemVx _ | .ldVxMem _ => true

/-- The Unknown descriptor of R86: its raw word, when the instruction is one. -/
def Instr.unknownWord? : Instr → Option Word
  | .unknown0 w | .unknown5 w | .unknown8 w | .unknown9 w | .unknownE w | .unknownF w => some w
  | .cls | .ret => none
  | .jp _ | .call _ | .ldI _ | .jpV0 _ => none
  | .seImm _ _ | .sneImm _ _ | .ldImm _ _ | .addImm _ _ | .rnd _ _ => none
  | .seReg _ _ | .sneReg _ _ | .ldReg _ _ | .orReg _ _ | .andReg _ _ | .xorReg _ _ => none
  | .addReg _ _ | .sub _ _ | .shr _ _ | .subn _ _ | .shl _ _ => none
  | .drw _ _ _ => none
  | .skp _ | .sknp _ | .ldVxDt _ | .ldVxK _ | .ldDtVx _ | .ldStVx _ | .addIVx _ | .ldFVx _ => none
  | .ldBVx _ | .ldMemVx _ | .ldVxMem _ => none

end Sys2Proof
end

