-- ==== Sys2Proof/Decode.lean ====
section
/-! DEFINITION. The decoder (30_encoding.md R80 to R88), total on words, driven by the opcode table of R83; then the
encoder, written from the `Encoding:` lines of the family files. -/

namespace Sys2Proof

/-! ### Fields of an instruction word (R81) -/

/-- op = w[15:12]. -/
def opField (w : Word) : Nibble := w.extractLsb' 12 4

/-- x = w[11:8]. -/
def xField (w : Word) : Reg := ⟨(w.extractLsb' 8 4).toNat, (w.extractLsb' 8 4).isLt⟩

/-- y = w[7:4]. -/
def yField (w : Word) : Reg := ⟨(w.extractLsb' 4 4).toNat, (w.extractLsb' 4 4).isLt⟩

/-- n = w[3:0]. -/
def nField (w : Word) : Nibble := w.extractLsb' 0 4

/-- nn = w[7:0]. -/
def nnField (w : Word) : Byte := w.extractLsb' 0 8

/-- nnn = w[11:0]. -/
def nnnField (w : Word) : Addr12 := w.extractLsb' 0 12

/-! ### The opcode table (R83; opcode_table.json) -/

/-- What a row fixes below the family nibble: nothing, the low nibble, the low byte or all twelve low bits. -/
inductive SubOpcode where
  | any
  | low4 (n : Nibble)
  | low8 (nn : Byte)
  | low12 (nnn : Addr12)
  deriving DecidableEq, Repr

/-- Whether a word's sub-opcode is the one a row fixes. -/
def subMatches (sub : SubOpcode) (w : Word) : Bool :=
  match sub with
  | .any => true
  | .low4 n => nField w == n
  | .low8 nn => nnField w == nn
  | .low12 nnn => nnnField w == nnn

/-- The mask bits below the family nibble that a sub-opcode fixes, and their value: the `mask` and `match` columns of
opcode_table.json, less the family nibble. -/
def subMaskMatch (sub : SubOpcode) : Nat × Nat :=
  match sub with
  | .any => (0x000, 0)
  | .low4 n => (0x00F, n.toNat)
  | .low8 nn => (0x0FF, nn.toNat)
  | .low12 nnn => (0xFFF, nnn.toNat)

/-- One row of the opcode table: its mnemonic, its family nibble, what else it fixes, and the instruction it reads. -/
structure OpcodeRow where
  mnemonic : String
  op : Nibble
  sub : SubOpcode
  make : Word → Instr

/-- A word is a row's when its family nibble and its sub-opcode are the row's. -/
def rowMatches (w : Word) (r : OpcodeRow) : Bool := opField w == r.op && subMatches r.sub w

/-- The rows with format N: 1nnn, 2nnn, Annn, Bnnn. -/
def rowsNnn : List OpcodeRow := [
  ⟨"JP", 0x1, .any, fun w => .jp (nnnField w)⟩,
  ⟨"CALL", 0x2, .any, fun w => .call (nnnField w)⟩,
  ⟨"LD_I", 0xA, .any, fun w => .ldI (nnnField w)⟩,
  ⟨"JP_V0", 0xB, .any, fun w => .jpV0 (nnnField w)⟩]

/-- The rows with format XNN whose nn is an immediate. -/
def rowsXnn : List OpcodeRow := [
  ⟨"SE_IMM", 0x3, .any, fun w => .seImm (xField w) (nnField w)⟩,
  ⟨"SNE_IMM", 0x4, .any, fun w => .sneImm (xField w) (nnField w)⟩,
  ⟨"LD_IMM", 0x6, .any, fun w => .ldImm (xField w) (nnField w)⟩,
  ⟨"ADD_IMM", 0x7, .any, fun w => .addImm (xField w) (nnField w)⟩,
  ⟨"RND", 0xC, .any, fun w => .rnd (xField w) (nnField w)⟩]

/-- The rows with format XYN. -/
def rowsXyn : List OpcodeRow := [
  ⟨"SE_REG", 0x5, .low4 0x0, fun w => .seReg (xField w) (yField w)⟩,
  ⟨"LD_REG", 0x8, .low4 0x0, fun w => .ldReg (xField w) (yField w)⟩,
  ⟨"OR", 0x8, .low4 0x1, fun w => .orReg (xField w) (yField w)⟩,
  ⟨"AND", 0x8, .low4 0x2, fun w => .andReg (xField w) (yField w)⟩,
  ⟨"XOR", 0x8, .low4 0x3, fun w => .xorReg (xField w) (yField w)⟩,
  ⟨"ADD_REG", 0x8, .low4 0x4, fun w => .addReg (xField w) (yField w)⟩,
  ⟨"SUB", 0x8, .low4 0x5, fun w => .sub (xField w) (yField w)⟩,
  ⟨"SHR", 0x8, .low4 0x6, fun w => .shr (xField w) (yField w)⟩,
  ⟨"SUBN", 0x8, .low4 0x7, fun w => .subn (xField w) (yField w)⟩,
  ⟨"SHL", 0x8, .low4 0xE, fun w => .shl (xField w) (yField w)⟩,
  ⟨"SNE_REG", 0x9, .low4 0x0, fun w => .sneReg (xField w) (yField w)⟩,
  ⟨"DRW", 0xD, .any, fun w => .drw (xField w) (yField w) (nField w)⟩]

/-- The rows whose low byte is a sub-opcode: families E and F (R88). -/
def rowsX : List OpcodeRow := [
  ⟨"SKP", 0xE, .low8 0x9E, fun w => .skp (xField w)⟩,
  ⟨"SKNP", 0xE, .low8 0xA1, fun w => .sknp (xField w)⟩,
  ⟨"LD_VX_DT", 0xF, .low8 0x07, fun w => .ldVxDt (xField w)⟩,
  ⟨"LD_VX_K", 0xF, .low8 0x0A, fun w => .ldVxK (xField w)⟩,
  ⟨"LD_DT_VX", 0xF, .low8 0x15, fun w => .ldDtVx (xField w)⟩,
  ⟨"LD_ST_VX", 0xF, .low8 0x18, fun w => .ldStVx (xField w)⟩,
  ⟨"ADD_I_VX", 0xF, .low8 0x1E, fun w => .addIVx (xField w)⟩,
  ⟨"LD_F_VX", 0xF, .low8 0x29, fun w => .ldFVx (xField w)⟩,
  ⟨"LD_B_VX", 0xF, .low8 0x33, fun w => .ldBVx (xField w)⟩,
  ⟨"LD_MEM_VX", 0xF, .low8 0x55, fun w => .ldMemVx (xField w)⟩,
  ⟨"LD_VX_MEM", 0xF, .low8 0x65, fun w => .ldVxMem (xField w)⟩]

/-- The two exact words of family 0 (R84). -/
def rowsFixed : List OpcodeRow := [
  ⟨"CLS", 0x0, .low12 0x0E0, fun _ => .cls⟩,
  ⟨"RET", 0x0, .low12 0x0EE, fun _ => .ret⟩]

/-- The 34 instruction rows of R83. -/
def instructionRows : List OpcodeRow := rowsFixed ++ rowsNnn ++ rowsXnn ++ rowsXyn ++ rowsX

/-- The Unknown rows: lowest priority, one per family that has unknown words (R86; opcode_table.json `priority`). -/
def unknownRows : List OpcodeRow := [
  ⟨"UNKNOWN_0", 0x0, .any, .unknown0⟩,
  ⟨"UNKNOWN_5", 0x5, .any, .unknown5⟩,
  ⟨"UNKNOWN_8", 0x8, .any, .unknown8⟩,
  ⟨"UNKNOWN_9", 0x9, .any, .unknown9⟩,
  ⟨"UNKNOWN_E", 0xE, .any, .unknownE⟩,
  ⟨"UNKNOWN_F", 0xF, .any, .unknownF⟩]

/-- The whole table, Unknown rows last. -/
def opcodeTable : List OpcodeRow := instructionRows ++ unknownRows

/-! ### Decoding -/

/-- The decoder of R82: every word decodes to the instruction of the first row it matches. The last arm is never taken,
since the families' rows cover every word (Laws/Decode.lean, `opcodeTable_covers`); it keeps the function total. -/
def decodeWord (w : Word) : Instr :=
  match opcodeTable.find? (rowMatches w) with
  | some r => r.make w
  | none => .unknown0 w

/-- The one way decoding bytes can fail: fewer than the two bytes of an instruction (R80). No word is ever refused (R82). -/
inductive DecodeError where
  | truncated (bytesLeft : Nat)
  deriving DecidableEq, Repr

/-- Two bytes as a word, the lower address first and uppermost (20_memory.md R58, R59). -/
def wordOfBytes (hi lo : Byte) : Word := hi ++ lo

/-- The instruction at the head of a byte sequence, and the bytes after it. -/
def decode : List Byte → Except DecodeError (Instr × List Byte)
  | hi :: lo :: rest => .ok (decodeWord (wordOfBytes hi lo), rest)
  | [_] => .error (.truncated 1)
  | [] => .error (.truncated 0)

/-! ### Encoding (the `Encoding:` lines of 40_control_flow.md to 46_unknown.md) -/

/-- A register number as the four bits of its field. -/
def regBits (r : Reg) : Nibble := BitVec.ofNat 4 r.val

/-- op[4] nnn[12]. -/
def wordN (op : Nibble) (nnn : Addr12) : Word := op ++ nnn

/-- op[4] x[4] nn[8]. -/
def wordXNN (op : Nibble) (x : Reg) (nn : Byte) : Word := op ++ (regBits x ++ nn)

/-- op[4] x[4] y[4] n[4]. -/
def wordXYN (op : Nibble) (x y : Reg) (n : Nibble) : Word := op ++ (regBits x ++ (regBits y ++ n))

/-- The word of an instruction. -/
def encodeWord : Instr → Word
  | .cls => 0x00E0
  | .ret => 0x00EE
  | .jp nnn => wordN 0b0001 nnn
  | .call nnn => wordN 0b0010 nnn
  | .seImm x nn => wordXNN 0b0011 x nn
  | .sneImm x nn => wordXNN 0b0100 x nn
  | .seReg x y => wordXYN 0b0101 x y 0b0000
  | .ldImm x nn => wordXNN 0b0110 x nn
  | .addImm x nn => wordXNN 0b0111 x nn
  | .ldReg x y => wordXYN 0b1000 x y 0b0000
  | .orReg x y => wordXYN 0b1000 x y 0b0001
  | .andReg x y => wordXYN 0b1000 x y 0b0010
  | .xorReg x y => wordXYN 0b1000 x y 0b0011
  | .addReg x y => wordXYN 0b1000 x y 0b0100
  | .sub x y => wordXYN 0b1000 x y 0b0101
  | .shr x y => wordXYN 0b1000 x y 0b0110
  | .subn x y => wordXYN 0b1000 x y 0b0111
  | .shl x y => wordXYN 0b1000 x y 0b1110
  | .sneReg x y => wordXYN 0b1001 x y 0b0000
  | .ldI nnn => wordN 0b1010 nnn
  | .jpV0 nnn => wordN 0b1011 nnn
  | .rnd x nn => wordXNN 0b1100 x nn
  | .drw x y n => wordXYN 0b1101 x y n
  | .skp x => wordXNN 0b1110 x 0b10011110
  | .sknp x => wordXNN 0b1110 x 0b10100001
  | .ldVxDt x => wordXNN 0b1111 x 0b00000111
  | .ldVxK x => wordXNN 0b1111 x 0b00001010
  | .ldDtVx x => wordXNN 0b1111 x 0b00010101
  | .ldStVx x => wordXNN 0b1111 x 0b00011000
  | .addIVx x => wordXNN 0b1111 x 0b00011110
  | .ldFVx x => wordXNN 0b1111 x 0b00101001
  | .ldBVx x => wordXNN 0b1111 x 0b00110011
  | .ldMemVx x => wordXNN 0b1111 x 0b01010101
  | .ldVxMem x => wordXNN 0b1111 x 0b01100101
  | .unknown0 w | .unknown5 w | .unknown8 w | .unknown9 w | .unknownE w | .unknownF w => w

/-- The bytes of a word as memory holds them: bits 15 to 8 at the lower address (20_memory.md R59). -/
def bytesOfWord (w : Word) : List Byte := [w.extractLsb' 8 8, w.extractLsb' 0 8]

/-- The bytes of an instruction. -/
def encode (i : Instr) : List Byte := bytesOfWord (encodeWord i)

/-- The host's question about a row of opcode_table.json: what the decoder reads from an instruction whose bits are `w`
(bit 0 the least significant bit of the one 16-bit word), the bits from `nbits` on being 0. -/
def decodeTableWord (nbits w : Nat) : Option Instr :=
  match decode (bytesOfWord (BitVec.ofNat 16 (w % 2 ^ nbits))) with
  | .ok (i, _) => some i
  | .error _ => none

end Sys2Proof
end

