-- ==== Sys2Proof/Config.lean ====
section
/-! DEFINITION. What an implementation fixes (00_scope.md R6, R7) and the one free value, the random oracle.
The font table, which R53 also calls a configuration constant, stands in Machine/Font.lean. -/

namespace Sys2Proof

/-- SHIFT_SOURCE (00_scope.md R7; 92_eei_decisions.md D7): which register 8xy6 and 8xyE shift. -/
inductive ShiftSource where
  | vx
  | vy
  deriving DecidableEq, Repr

/-- The value the spec takes for SHIFT_SOURCE (41_register_alu.md R129). -/
def Config.shiftSource : ShiftSource := .vx

/-- MEMSIZE (R6). -/
abbrev Config.memSize : Nat := 4096

/-- ROM_ORIGIN, which is also the reset PC (R6; 70_reset_and_hazards.md R261). -/
abbrev Config.romOrigin : Nat := 0x200

/-- ROM_MAX: the longest ROM that fits (R6; 60_exceptions.md R245). -/
abbrev Config.romMax : Nat := 3584

/-- The last PC a fetch accepts (20_memory.md R58). -/
abbrev Config.lastFetch : Nat := 0xFFE

/-- The random oracle: the byte of the n-th draw (42_addressing_random.md R152). A FREE VALUE, log entry 2:
it has no body, so nothing can be proved of it and a claim holds for every sequence of draws. -/
opaque Config.rngDraw : Nat → Byte

end Sys2Proof
end

