-- ==== Sys2Proof/Machine/State.lean ====
section
/-! DEFINITION. The state of the core (10_state.md R20) as plain data, the reasons a step can stop, and the state after
reset (R37; 70_reset_and_hazards.md R260). -/

namespace Sys2Proof.Machine

/-- The fatal faults of execution (60_exceptions.md R221). -/
inductive FaultKind where
  | stackOverflow
  | stackUnderflow
  | pcOutOfRange
  deriving DecidableEq, Repr

/-- RUN (10_state.md R32). `halted kind addr` carries the 16-bit PC of the offending instruction. -/
inductive RunState where
  | running
  | awaitingKey (x : Reg)
  | halted (kind : FaultKind) (addr : Word)
  deriving DecidableEq, Repr

/-- A record of REPORTS (10_state.md R33): the raw word and the PC it was fetched from. -/
inductive Report where
  | unknown (word addr : Word)
  deriving DecidableEq, Repr

/-- One turn of the schedule (60_exceptions.md R233): a core step, a tick of the Timer Clock, or a host event (R240). -/
inductive Turn where
  /-- the core's turn (R220) -/
  | core
  /-- the Timer Clock's turn (R232) -/
  | tick
  /-- KeyEvent(k, pressed) (R241); a key number outside 0 to 15 can arrive at the port and is refused there -/
  | key (k : Nat) (pressed : Bool)
  /-- AckRedraw (R243) -/
  | ackRedraw
  /-- Load(rom) (R245) -/
  | load (rom : List Byte)
  /-- Reset (R246) -/
  | reset
  deriving DecidableEq, Repr

/-- The parameters of the step relation (10_state.md R20, last sentence), held beside the machine's state as plain data.
These four fields are the MODEL's own (log entries 1, 2, 3, 5). -/
structure Env where
  /-- SHIFT_SOURCE (D7) -/
  shiftSource : ShiftSource
  /-- the turns still to come, next first; when none is left the core moves (log entry 1) -/
  schedule : List Turn
  /-- how many bytes the random oracle has given (log entry 2) -/
  draws : Nat
  /-- no core step and no event that changes the state has come since the last reset: what R245 asks of a Load
  (log entry 5) -/
  untouched : Bool
  deriving DecidableEq, Repr

/-- FB: 32 rows of 64 pixels, `FB[y][x]` (10_state.md R30). -/
abbrev Framebuffer := Vector (Vector Bool 64) 32

/-- MEM as the cells that differ from the reset contents, addresses strictly rising (Machine/Memory.lean, `Memory.wf`). -/
abbrev Memory := List Host.Cell

/-- The state tuple of 10_state.md R20, and the step's parameters. -/
structure State where
  /-- V0 to VF (R21) -/
  v : Vector Byte 16
  /-- I (R23) -/
  i : Word
  /-- PC (R24) -/
  pc : Word
  /-- STACK (R25) -/
  stack : Vector Word 16
  /-- SP, 0 to 16 (R26) -/
  sp : Fin 17
  /-- DT (R27) -/
  dt : Byte
  /-- ST (R28) -/
  st : Byte
  /-- KEYS (R29) -/
  keys : Vector Bool 16
  /-- FB (R30) -/
  fb : Framebuffer
  /-- DIRTY (R31) -/
  dirty : Bool
  /-- MEM (R34) -/
  mem : Memory
  /-- RUN (R32) -/
  run : RunState
  /-- REPORTS, oldest first (R33) -/
  reports : List Report
  /-- the step's parameters (R20) -/
  env : Env
  deriving DecidableEq, Repr

/-- Why a step stops although the spec says what the machine is doing. -/
inductive Fault where
  /-- RUN = Halted(kind, addr) and no turn is left: the fault stop of 60_exceptions.md R247. Raised by Machine/Turns.lean.
  Safe: no step is enabled, and nothing is claimed of what follows. -/
  | faultStop (kind : FaultKind) (addr : Word)
  /-- RUN = AwaitingKey(x) and no turn at all is left: the run's end at a wait stop (R247; a wait stop with turns left that
  are no key events is Safety.lean's `WaitStop`, and those turns still happen). Raised by Machine/Turns.lean. Safe, as above. -/
  | waitStop (x : Reg)
  /-- LoadFault (R227, R245): a ROM of `length` > 3584 bytes; the launch ends with the state unchanged. Raised by
  Machine/HostPorts.lean. Safe: no step follows. -/
  | loadFault (length : Nat)
  deriving DecidableEq, Repr

/-- Why the model gives a turn no meaning. -/
inductive Refusal where
  /-- an instruction without a meaning yet; raised by a refused arm of Dispatch.lean. Safe. -/
  | notModelled (mnemonic : String)
  /-- a KeyEvent with a key outside 0 to 15, refused at the port (60_exceptions.md R241, D42). Raised by
  Machine/HostPorts.lean. Safe. -/
  | keyIndex (k : Nat)
  /-- a Load on a state other than the reset state, or after a core step or an event that changed the state
  (60_exceptions.md R245, D30). Raised by Machine/HostPorts.lean. Safe. -/
  | loadNotAtReset
  deriving DecidableEq, Repr

/-- The parameters after reset: the spec's SHIFT_SOURCE, nothing scheduled, nothing drawn, nothing happened
(log entries 1, 2, 3, 5). -/
def Env.reset : Env :=
  { shiftSource := Config.shiftSource, schedule := [], draws := 0, untouched := true }

/-- Every element at its reset value (10_state.md R37). MEM lists nothing: an unlisted address reads as the reset
contents, the font and zeros (Machine/Memory.lean). -/
def State.reset : State :=
  { v := Vector.replicate 16 0
    i := 0
    pc := 0x200
    stack := Vector.replicate 16 0
    sp := 0
    dt := 0
    st := 0
    keys := Vector.replicate 16 false
    fb := Vector.replicate 32 (Vector.replicate 64 false)
    dirty := false
    mem := []
    run := .running
    reports := []
    env := Env.reset }

end Sys2Proof.Machine
end

