-- ==== Sys2Proof/Machine/Font.lean ====
section
/-! DEFINITION. FONT_BASE and FONT_GLYPHS (20_memory.md R52, R53; log entry 9) and the reset contents of memory. -/

namespace Sys2Proof.Machine

/-- FONT_BASE (R52, D13). -/
def fontBase : Nat := 0x000

/-- FONT_GLYPHS: five bytes a glyph, glyph 0 first, top row first (R53). -/
def fontGlyphs : List Byte :=
  [0xF0, 0x90, 0x90, 0x90, 0xF0] ++
  [0x20, 0x60, 0x20, 0x20, 0x70] ++
  [0xF0, 0x10, 0xF0, 0x80, 0xF0] ++
  [0xF0, 0x10, 0xF0, 0x10, 0xF0] ++
  [0x90, 0x90, 0xF0, 0x10, 0x10] ++
  [0xF0, 0x80, 0xF0, 0x10, 0xF0] ++
  [0xF0, 0x80, 0xF0, 0x90, 0xF0] ++
  [0xF0, 0x10, 0x20, 0x40, 0x40] ++
  [0xF0, 0x90, 0xF0, 0x90, 0xF0] ++
  [0xF0, 0x90, 0xF0, 0x10, 0xF0] ++
  [0xF0, 0x90, 0xF0, 0x90, 0x90] ++
  [0xE0, 0x90, 0xE0, 0x90, 0xE0] ++
  [0xF0, 0x80, 0x80, 0x80, 0xF0] ++
  [0xE0, 0x90, 0x90, 0x90, 0xE0] ++
  [0xF0, 0x80, 0xF0, 0x80, 0xF0] ++
  [0xF0, 0x80, 0xF0, 0x80, 0x80]

/-- The byte an address holds at reset (10_state.md R37): a font byte, or 0x00 (20_memory.md R51, R54). -/
def initialByte (a : Nat) : Byte :=
  if fontBase ≤ a then fontGlyphs.getD (a - fontBase) 0 else 0

end Sys2Proof.Machine
end

