-- ==== Sys2Proof/Machine/Memory.lean ====
section
/-! DEFINITION. MEM (20_memory.md R50) as a list of cells in one canonical form: what is listed differs from the reset
contents, and addresses rise strictly; an unlisted address reads as its reset byte (log entry 13). -/

namespace Sys2Proof.Machine

/-- The byte at an address. -/
def Memory.read (m : Memory) (a : Nat) : Byte :=
  match m with
  | [] => initialByte a
  | (k, b) :: rest => if k = a then b else Memory.read rest a

/-- List a cell, in its place. -/
def Memory.insertCell (m : Memory) (a : Nat) (b : Byte) : Memory :=
  match m with
  | [] => [(a, b)]
  | (k, c) :: rest =>
    if a < k then (a, b) :: (k, c) :: rest
    else if a = k then (a, b) :: rest
    else (k, c) :: Memory.insertCell rest a b

/-- Take a cell off the list. -/
def Memory.eraseCell (m : Memory) (a : Nat) : Memory :=
  match m with
  | [] => []
  | (k, c) :: rest => if k = a then rest else (k, c) :: Memory.eraseCell rest a

/-- Store a byte, keeping the canonical form. -/
def Memory.write (m : Memory) (a : Nat) (b : Byte) : Memory :=
  if b = initialByte a then Memory.eraseCell m a else Memory.insertCell m a b

/-- Store bytes at increasing addresses (20_memory.md R54, R56). -/
def Memory.writeBytes (m : Memory) (a : Nat) (bs : List Byte) : Memory :=
  match bs with
  | [] => m
  | b :: rest => Memory.writeBytes (Memory.write m a b) (a + 1) rest

/-- The canonical form: addresses strictly rising, all below 4096, no cell equal to its reset byte. -/
abbrev Memory.wf (m : Memory) : Prop :=
  m.Pairwise (fun c d => c.1 < d.1) ∧ ∀ c ∈ m, c.1 < Config.memSize ∧ c.2 ≠ initialByte c.1

/-- Data address formation (20_memory.md R55): `(I + k) & 0xFFF`, the sum not cut before the mask. -/
def dataAddr (i : Word) (k : Nat) : Nat := (i.toNat + k) % Config.memSize

/-- The word a fetch at `pc` reads: two bytes, unmasked, the lower address uppermost (R58, R59). -/
def Memory.fetch (m : Memory) (pc : Nat) : BitVec 16 := m.read pc ++ m.read (pc + 1)

end Sys2Proof.Machine
end

