-- ==== Sys2Proof/Machine/Ops.lean ====
section
/-! DEFINITION. The named operations over the state that the meanings are written with: one setter per element, PC
advance and skip, stack push and pop, memory through I, faults and reports, the random draw. -/

namespace Sys2Proof.Machine

/-- What a meaning and a step answer. -/
abbrev Result := Host.Outcome State Fault Refusal

/-! ### Elements (00_scope.md R10) -/

/-- The value of V[r]. -/
def State.reg (s : State) (r : Reg) : Byte := s.v[r]

/-- V[r] <- b. -/
def State.setReg (s : State) (r : Reg) (b : Byte) : State := { s with v := s.v.set r.val b r.isLt }

/-- I <- a. -/
def State.setI (s : State) (a : Word) : State := { s with i := a }

/-- pc <- a. -/
def State.setPc (s : State) (a : Word) : State := { s with pc := a }

/-- DT <- b. -/
def State.setDt (s : State) (b : Byte) : State := { s with dt := b }

/-- ST <- b. -/
def State.setSt (s : State) (b : Byte) : State := { s with st := b }

/-- KEYS[k] <- pressed. -/
def State.setKey (s : State) (k : Reg) (pressed : Bool) : State :=
  { s with keys := s.keys.set k.val pressed k.isLt }

/-- FB <- fb. -/
def State.setFb (s : State) (fb : Framebuffer) : State := { s with fb := fb }

/-- DIRTY <- d. -/
def State.setDirty (s : State) (d : Bool) : State := { s with dirty := d }

/-- MEM <- m. -/
def State.setMem (s : State) (m : Memory) : State := { s with mem := m }

/-- RUN <- r. -/
def State.setRun (s : State) (r : RunState) : State := { s with run := r }

/-- STACK and SP. -/
def State.setStack (s : State) (stack : Vector Word 16) (sp : Fin 17) : State := { s with stack := stack, sp := sp }

/-- Append to REPORTS (10_state.md R33). -/
def State.addReport (s : State) (r : Report) : State := { s with reports := s.reports ++ [r] }

/-- The step's parameters. -/
def State.setEnv (s : State) (e : Env) : State := { s with env := e }

/-! ### What has happened since the last reset (60_exceptions.md R245; log entry 5) -/

/-- Record a transition: the reset state stays untouched only where it was and the transition changes nothing. -/
def State.note (s : State) (changesNothing : Bool) : State :=
  s.setEnv { s.env with untouched := changesNothing && s.env.untouched }

/-- Record a transition after which no Load may come: a core step, or an event that changes the state. -/
def State.touch (s : State) : State := s.note false

/-! ### Program counter (40_control_flow.md R100, R109) -/

/-- pc <- pc + 2, in 16 bits. -/
def State.advance (s : State) : State := s.setPc (s.pc + 2)

/-- pc <- pc + 4 when the condition holds, else pc + 2. -/
def State.skipIf (s : State) (c : Bool) : State := s.setPc (if c then s.pc + 4 else s.pc + 2)

/-! ### Call stack (10_state.md R25, R26) -/

/-- Push a return address into slot SP; none when the stack already holds 16. -/
def State.push? (s : State) (a : Word) : Option State :=
  if h : s.sp.val < 16 then
    some (s.setStack (s.stack.set s.sp.val a h) ⟨s.sp.val + 1, by omega⟩)
  else none

/-- Pop the address in slot SP - 1, which keeps its value; none when the stack is empty. -/
def State.pop? (s : State) : Option (Word × State) :=
  if h : 0 < s.sp.val then
    some (s.stack[s.sp.val - 1]'(by omega), s.setStack s.stack ⟨s.sp.val - 1, by omega⟩)
  else none

/-! ### Memory through I (20_memory.md R55, R56) -/

/-- MemRead(I + k, 1). -/
def State.readI (s : State) (k : Nat) : Byte := s.mem.read (dataAddr s.i k)

/-- MemWrite(I + k, 1, b). -/
def State.writeI (s : State) (k : Nat) (b : Byte) : State := s.setMem (s.mem.write (dataAddr s.i k) b)

/-- MemWrite of a run of bytes at I + k, I + k + 1, ..., increasing. -/
def State.storeRun (s : State) (k : Nat) (bs : List Byte) : State :=
  match bs with
  | [] => s
  | b :: rest => State.storeRun (s.writeI k b) (k + 1) rest

/-- The word at PC (20_memory.md R58). -/
def State.fetchWord (s : State) : Word := s.mem.fetch s.pc.toNat

/-! ### Faults, reports and the one way out of Halted (60_exceptions.md R221 to R231) -/

/-- Taking a fatal fault, the machine's only exception: RUN <- Halted(kind, PC) and nothing else (R222). No state is
saved and there is no handler (R230). -/
def State.raise (s : State) (kind : FaultKind) : State := s.setRun (.halted kind s.pc)

/-- There is no return from a fault (R231): Halted is left only by the host's Reset, which replaces the whole state by
the reset state (R246; 70_reset_and_hazards.md R260). The step's parameters are no part of that state (R20): they go on, and nothing
has happened since this reset. -/
def State.hostReset (s : State) : State := State.reset.setEnv { s.env with untouched := true }

/-- The code of a fault kind (R221, D43). -/
def FaultKind.code : FaultKind → Nat
  | .stackOverflow => 1
  | .stackUnderflow => 2
  | .pcOutOfRange => 3

/-- The code of LoadFault (R221). -/
def loadFaultCode : Nat := 4

/-- The code of a report (R221). -/
def Report.code : Report → Nat
  | .unknown _ _ => 0

/-- report Unknown(w, pc) (R226). -/
def State.reportUnknown (s : State) (w : Word) : State := s.addReport (.unknown w s.pc)

/-! ### The random oracle (42_addressing_random.md R152) -/

/-- The byte the next draw gives: a free value. -/
def State.nextDraw (s : State) : Byte := Config.rngDraw s.env.draws

/-- Count a draw, so that the next one is fresh. -/
def State.countDraw (s : State) : State := s.setEnv { s.env with draws := s.env.draws + 1 }

/-! ### Outputs that are functions of the state (10_state.md R38) -/

/-- TONE (60_exceptions.md R244). -/
def State.tone (s : State) : Bool := decide (0 < s.st.toNat)

/-- The renderer's view (60_exceptions.md R242). -/
def State.rendererView (s : State) : Framebuffer × Bool := (s.fb, s.dirty)

end Sys2Proof.Machine
end

