-- ==== Sys2Proof/Machine/Operands.lean ====
section
/-! DEFINITION. The operand forms: how a rule turns a field or a register's value into the thing it names. -/

namespace Sys2Proof.Machine

/-- nnn and a register's byte are zero-extended to 16 bits (30_encoding.md R92). -/
def zext16 {n : Nat} (b : BitVec n) : Word := b.setWidth 16

/-- The low nibble of a register's value, as a key number (44_input.md R180) or a glyph number (45_timer_memory.md R194). -/
def lowNibble (b : Byte) : Reg := ⟨b.toNat % 16, Nat.mod_lt _ (by decide)⟩

/-- Whether the key a register names is pressed (R180, R181). -/
def State.keyPressed (s : State) (x : Reg) : Bool := s.keys[lowNibble (s.reg x)]

/-- The operand of 8xy6 and 8xyE (41_register_alu.md R129, R131). -/
def State.shiftOperand (s : State) (x y : Reg) : Byte :=
  match s.env.shiftSource with
  | .vx => s.reg x
  | .vy => s.reg y

/-- The address of a glyph (45_timer_memory.md R194; 20_memory.md R52). -/
def glyphAddr (g : Reg) : Word := BitVec.ofNat 16 (fontBase + 5 * g.val)

/-- A sprite's column plus an offset, wrapped (43_display.md R162, R163). -/
def columnOf (b : Byte) (c : Nat) : Fin 64 := ⟨(b.toNat % 64 + c) % 64, Nat.mod_lt _ (by decide)⟩

/-- A sprite's row plus an offset, wrapped (R162, R163). -/
def rowOf (b : Byte) (r : Nat) : Fin 32 := ⟨(b.toNat % 32 + r) % 32, Nat.mod_lt _ (by decide)⟩

/-- The decimal digits of a byte, hundreds first (45_timer_memory.md R195). -/
def bcdDigits (b : Byte) : List Byte :=
  [BitVec.ofNat 8 (b.toNat / 100), BitVec.ofNat 8 (b.toNat / 10 % 10), BitVec.ofNat 8 (b.toNat % 10)]

/-- V[0] to V[x], in order (45_timer_memory.md R196). -/
def State.regsUpTo (s : State) (x : Reg) : List Byte := s.v.toList.take (x.val + 1)

end Sys2Proof.Machine
end

