-- ==== Sys2Proof/Machine/Flags.lean ====
section
/-! DEFINITION. Everything that goes into VF as a flag (10_state.md R22; 41_register_alu.md R120), computed on unbounded
integers, and the one order of writes: the flag last (00_scope.md R13, D6). -/

namespace Sys2Proof.Machine

/-- bool(c) (00_scope.md R9). -/
def boolByte (c : Bool) : Byte := if c then 1 else 0

/-- The carry of 8xy4: bool(a + b > 255) (R120, R127). -/
def carryFlag (a b : Byte) : Byte := boolByte (decide (255 < a.toNat + b.toNat))

/-- The flag of 8xy5 and 8xy7: 1 when there is no borrow, minuend >= subtrahend (R120, R128, R130). -/
def noBorrowFlag (minuend subtrahend : Byte) : Byte := boolByte (decide (subtrahend.toNat ≤ minuend.toNat))

/-- The bit 8xy6 shifts out: v & 1 (R129). -/
def shrFlag (b : Byte) : Byte := b &&& 1

/-- The bit 8xyE shifts out: (v >> 7) & 1 (R131). -/
def shlFlag (b : Byte) : Byte := (b >>> 7) &&& 1

/-- V[x] <- result, then V[15] <- flag: with x = F the flag is what stays (D6). -/
def State.setResultFlag (s : State) (x : Reg) (result flag : Byte) : State := (s.setReg x result).setReg VF flag

end Sys2Proof.Machine
end

