-- ==== Sys2Proof/Machine/Addressing.lean ====
section
/-! DEFINITION. Addressing and randomization (42_addressing_random.md). -/

namespace Sys2Proof.Machine

/-- LD I, nnn (R150). -/
def execLdI (nnn : Addr12) (s : State) : Result := .next (s.setI (zext16 nnn)).advance

/-- JP V0, nnn (R151): a 16-bit sum, not masked (D37). -/
def execJpV0 (nnn : Addr12) (s : State) : Result := .next (s.setPc (zext16 (s.reg 0) + zext16 nnn))

/-- What RND does with the byte it draws (R153). -/
def rndWithDraw (draw : Byte) (x : Reg) (nn : Byte) (s : State) : State :=
  (s.setReg x (draw &&& nn)).countDraw.advance

/-- RND Vx, nn (R153): the draw is a free value (R152). -/
def execRnd (x : Reg) (nn : Byte) (s : State) : Result := .next (rndWithDraw s.nextDraw x nn s)

end Sys2Proof.Machine
end

