-- ==== Sys2Proof/Machine/ControlFlow.lean ====
section
/-! DEFINITION. Control flow (40_control_flow.md): JP, CALL, RET and the register skips. -/

namespace Sys2Proof.Machine

/-- JP nnn (R101). -/
def execJp (nnn : Addr12) (s : State) : Result := .next (s.setPc (zext16 nnn))

/-- CALL nnn (R102): StackOverflow when 16 addresses are held (60_exceptions.md R223). -/
def execCall (nnn : Addr12) (s : State) : Result :=
  match s.push? (s.pc + 2) with
  | some s' => .next (s'.setPc (zext16 nnn))
  | none => .next (s.raise .stackOverflow)

/-- RET (R103): StackUnderflow when no address is held (60_exceptions.md R224). -/
def execRet (s : State) : Result :=
  match s.pop? with
  | some (a, s') => .next (s'.setPc a)
  | none => .next (s.raise .stackUnderflow)

/-- SE Vx, nn (R104). -/
def execSeImm (x : Reg) (nn : Byte) (s : State) : Result := .next (s.skipIf (s.reg x == nn))

/-- SNE Vx, nn (R105). -/
def execSneImm (x : Reg) (nn : Byte) (s : State) : Result := .next (s.skipIf (s.reg x != nn))

/-- SE Vx, Vy (R106). -/
def execSeReg (x y : Reg) (s : State) : Result := .next (s.skipIf (s.reg x == s.reg y))

/-- SNE Vx, Vy (R107). -/
def execSneReg (x y : Reg) (s : State) : Result := .next (s.skipIf (s.reg x != s.reg y))

end Sys2Proof.Machine
end

