-- ==== Sys2Proof/Machine/Blitter.lean ====
section
/-! DEFINITION. The Display Blitter (43_display.md R160 to R164): a helper of 00E0 and Dxyn with no state of its own. -/

namespace Sys2Proof.Machine

/-- FB[py][px] (R160). -/
def Framebuffer.pixel (fb : Framebuffer) (px : Fin 64) (py : Fin 32) : Bool := fb[py][px]

/-- FB[py][px] <- FB[py][px] ^ 1. -/
def Framebuffer.toggle (fb : Framebuffer) (px : Fin 64) (py : Fin 32) : Framebuffer :=
  fb.set py.val ((fb[py]).set px.val (!fb[py][px]) px.isLt) py.isLt

/-- All pixels 0 (R161). -/
def blankScreen : Framebuffer := Vector.replicate 32 (Vector.replicate 64 false)

/-- The columns of a sprite row that its byte lights, left to right: bit 7 is the leftmost (R160). -/
def litColumns (b : Byte) : List Nat := (List.range 8).filter fun c => b.getLsbD (7 - c)

/-- The pixels a sprite covers with a 1 bit, rows in order, columns left to right, each wrapped on both axes (R162, R163). -/
def State.spritePixels (s : State) (x y : Reg) (n : Nibble) : List (Fin 64 × Fin 32) :=
  (List.range n.toNat).flatMap fun r =>
    (litColumns (s.readI r)).map fun c => (columnOf (s.reg x) c, rowOf (s.reg y) r)

/-- One pixel of the draw: a lit pixel collides; then the pixel is toggled (R162). -/
def plotPixel (acc : Framebuffer × Bool) (p : Fin 64 × Fin 32) : Framebuffer × Bool :=
  (acc.1.toggle p.1 p.2, acc.2 || acc.1.pixel p.1 p.2)

/-- The whole draw: the framebuffer after it and whether any pixel collided. -/
def plot (fb : Framebuffer) (ps : List (Fin 64 × Fin 32)) : Framebuffer × Bool := ps.foldl plotPixel (fb, false)

end Sys2Proof.Machine
end

