-- ==== Sys2Proof/Machine/Display.lean ====
section
/-! DEFINITION. Display (43_display.md): clear and sprite draw. -/

namespace Sys2Proof.Machine

/-- CLS (R161). -/
def execCls (s : State) : Result := .next ((s.setFb blankScreen).setDirty true).advance

/-- DRW Vx, Vy, n (R162). -/
def execDrw (x y : Reg) (n : Nibble) (s : State) : Result :=
  let drawn := plot s.fb (s.spritePixels x y n)
  .next (((s.setFb drawn.1).setReg VF (boolByte drawn.2)).setDirty true).advance

end Sys2Proof.Machine
end

