-- ==== Sys2Proof/Machine/Input.lean ====
section
/-! DEFINITION. Input query and key wait (44_input.md). The resume of the wait is a host event (Machine/HostPorts.lean). -/

namespace Sys2Proof.Machine

/-- SKP Vx (R181). -/
def execSkp (x : Reg) (s : State) : Result := .next (s.skipIf (s.keyPressed x))

/-- SKNP Vx (R182). -/
def execSknp (x : Reg) (s : State) : Result := .next (s.skipIf (!s.keyPressed x))

/-- LD Vx, K (R183): PC stays at the instruction while the core waits. -/
def execLdVxK (x : Reg) (s : State) : Result := .next (s.setRun (.awaitingKey x))

end Sys2Proof.Machine
end

