-- ==== Sys2Proof/Machine/RegisterAlu.lean ====
section
/-! DEFINITION. Register load, arithmetic and logic (41_register_alu.md). Operands are read before any write (00_scope.md
R13); the flag is written last. -/

namespace Sys2Proof.Machine

/-- LD Vx, nn (R121). -/
def execLdImm (x : Reg) (nn : Byte) (s : State) : Result := .next (s.setReg x nn).advance

/-- ADD Vx, nn (R122): wraps, no flag. -/
def execAddImm (x : Reg) (nn : Byte) (s : State) : Result := .next (s.setReg x (s.reg x + nn)).advance

/-- LD Vx, Vy (R123). -/
def execLdReg (x y : Reg) (s : State) : Result := .next (s.setReg x (s.reg y)).advance

/-- OR Vx, Vy (R124). -/
def execOrReg (x y : Reg) (s : State) : Result := .next (s.setReg x (s.reg x ||| s.reg y)).advance

/-- AND Vx, Vy (R125). -/
def execAndReg (x y : Reg) (s : State) : Result := .next (s.setReg x (s.reg x &&& s.reg y)).advance

/-- XOR Vx, Vy (R126). -/
def execXorReg (x y : Reg) (s : State) : Result := .next (s.setReg x (s.reg x ^^^ s.reg y)).advance

/-- ADD Vx, Vy (R127). -/
def execAddReg (x y : Reg) (s : State) : Result :=
  .next (s.setResultFlag x (s.reg x + s.reg y) (carryFlag (s.reg x) (s.reg y))).advance

/-- SUB Vx, Vy: x - y (R128). -/
def execSub (x y : Reg) (s : State) : Result :=
  .next (s.setResultFlag x (s.reg x - s.reg y) (noBorrowFlag (s.reg x) (s.reg y))).advance

/-- SHR Vx {, Vy} (R129). -/
def execShr (x y : Reg) (s : State) : Result :=
  .next (s.setResultFlag x (s.shiftOperand x y >>> 1) (shrFlag (s.shiftOperand x y))).advance

/-- SUBN Vx, Vy: y - x (R130). -/
def execSubn (x y : Reg) (s : State) : Result :=
  .next (s.setResultFlag x (s.reg y - s.reg x) (noBorrowFlag (s.reg y) (s.reg x))).advance

/-- SHL Vx {, Vy} (R131). -/
def execShl (x y : Reg) (s : State) : Result :=
  .next (s.setResultFlag x (s.shiftOperand x y <<< 1) (shlFlag (s.shiftOperand x y))).advance

end Sys2Proof.Machine
end

