-- ==== Sys2Proof/Machine/TimerMemory.lean ====
section
/-! DEFINITION. Timers, index arithmetic, font, BCD and bulk memory (45_timer_memory.md). -/

namespace Sys2Proof.Machine

/-- LD Vx, DT (R190). -/
def execLdVxDt (x : Reg) (s : State) : Result := .next (s.setReg x s.dt).advance

/-- LD DT, Vx (R191). -/
def execLdDtVx (x : Reg) (s : State) : Result := .next (s.setDt (s.reg x)).advance

/-- LD ST, Vx (R192). -/
def execLdStVx (x : Reg) (s : State) : Result := .next (s.setSt (s.reg x)).advance

/-- ADD I, Vx (R193): wraps at 16 bits, no flag (D16). -/
def execAddIVx (x : Reg) (s : State) : Result := .next (s.setI (s.i + zext16 (s.reg x))).advance

/-- LD F, Vx (R194). -/
def execLdFVx (x : Reg) (s : State) : Result := .next (s.setI (glyphAddr (lowNibble (s.reg x)))).advance

/-- LD B, Vx (R195): hundreds at I, tens at I + 1, ones at I + 2 (D14). -/
def execLdBVx (x : Reg) (s : State) : Result := .next (s.storeRun 0 (bcdDigits (s.reg x))).advance

/-- LD [I], Vx (R196): I unchanged (D15). -/
def execLdMemVx (x : Reg) (s : State) : Result := .next (s.storeRun 0 (s.regsUpTo x)).advance

/-- V[k] <- MemRead(I + k, 1) for k from 0 to x (R197). -/
def State.loadRegs (s : State) (x : Reg) : State :=
  { s with v := Vector.ofFn fun k : Reg => if k ≤ x then s.readI k.val else s.reg k }

/-- LD Vx, [I] (R197): I unchanged (D15). -/
def execLdVxMem (x : Reg) (s : State) : Result := .next (s.loadRegs x).advance

end Sys2Proof.Machine
end

