-- ==== Sys2Proof/Machine/Unknown.lean ====
section
/-! DEFINITION. Execution of an unrecognized word (46_unknown.md R210): a report, and the next word. One meaning per row of
the opcode table. -/

namespace Sys2Proof.Machine

/-- A word of family 0 (R210). -/
def execUnknown0 (w : Word) (s : State) : Result := .next (s.reportUnknown w).advance

/-- A word of family 5 (R210). -/
def execUnknown5 (w : Word) (s : State) : Result := .next (s.reportUnknown w).advance

/-- A word of family 8 (R210). -/
def execUnknown8 (w : Word) (s : State) : Result := .next (s.reportUnknown w).advance

/-- A word of family 9 (R210). -/
def execUnknown9 (w : Word) (s : State) : Result := .next (s.reportUnknown w).advance

/-- A word of family E (R210). -/
def execUnknownE (w : Word) (s : State) : Result := .next (s.reportUnknown w).advance

/-- A word of family F (R210). -/
def execUnknownF (w : Word) (s : State) : Result := .next (s.reportUnknown w).advance

end Sys2Proof.Machine
end

