-- ==== Sys2Proof/Machine/HostPorts.lean ====
section
/-! DEFINITION. The Timer Clock's tick (60_exceptions.md R232) and the host events (R241, R243, R245, R246). -/

namespace Sys2Proof.Machine

/-- A timer's next value: one less, clamped at zero (R232). -/
def countDown (b : Byte) : Byte := if 0 < b.toNat then b - 1 else 0

/-- Tick (R232). -/
def State.tick (s : State) : State := (s.setDt (countDown s.dt)).setSt (countDown s.st)

/-- The end of the wait of Fx0A (44_input.md R184): store the key, count the instruction complete. -/
def State.resume (s : State) (x k : Reg) : State :=
  (((s.setKey k true).setReg x (BitVec.ofNat 8 k.val)).setPc (s.pc + 2)).setRun .running

/-- KeyEvent(k, pressed) for a key of the machine (R241): a release-to-press edge ends the wait, any other event only
updates KEYS. An event that leaves its key as it was changes nothing. -/
def State.keyEvent (s : State) (k : Reg) (pressed : Bool) : State :=
  let u := s.note (s.keys[k] == pressed)
  match s.run with
  | .awaitingKey x => if pressed && !s.keys[k] then u.resume x k else u.setKey k pressed
  | .running => u.setKey k pressed
  | .halted _ _ => u.setKey k pressed

/-- The Input port (R241): a key number outside 0 to 15 is refused. -/
def keyPort (k : Nat) (pressed : Bool) (s : State) : Result :=
  if h : k < 16 then .next (s.keyEvent ⟨k, h⟩ pressed) else .refused (.keyIndex k)

/-- AckRedraw (R243). -/
def ackRedraw (s : State) : Result := .next (s.setDirty false)

/-- What Load asks (R245): the state is the reset state, and since the reset no core step and no event that changed the
state has come. The step's parameters are no part of the state (10_state.md R20). A tick and an acknowledgement change
nothing on the reset state, so they are not recorded. -/
def State.atReset (s : State) : Bool := s.env.untouched && decide (s.setEnv Env.reset = State.reset)

/-- The ROM in memory from 0x200 on (R245; 20_memory.md R54). -/
def State.placeRom (s : State) (rom : List Byte) : State := s.setMem (s.mem.writeBytes Config.romOrigin rom)

/-- Load(rom) (R245): all bytes or none (20_memory.md R68). -/
def loadPort (rom : List Byte) (s : State) : Result :=
  if s.atReset then
    if rom.length ≤ Config.romMax then .next (s.placeRom rom) else .fault (.loadFault rom.length)
  else .refused .loadNotAtReset

/-- Reset (R246). -/
def resetPort (s : State) : Result := .next s.hostReset

end Sys2Proof.Machine
end

