-- ==== Sys2Proof/Machine/Turns.lean ====
section
/-! DEFINITION. The core step (60_exceptions.md R220), one turn of any agent (R233, R240), and which turn comes next. -/

namespace Sys2Proof.Machine

/-- CoreStep, in RUN = Running (R220): the range check comes before the fetch (20_memory.md R58). -/
def coreStep (s : State) : Result :=
  if s.pc.toNat ≤ Config.lastFetch then exec (decodeWord s.fetchWord) s
  else .next (s.raise .pcOutOfRange)

/-- The core's turn: a core step where one is enabled; in AwaitingKey and Halted none is, and the turn passes
(R220, R236; log entry 4). After a core step no Load may come (R245). -/
def coreTurn (s : State) : Result :=
  match s.run with
  | .running => coreStep s.touch
  | .awaitingKey _ => .next s
  | .halted _ _ => .next s

/-- One transition, of the agent whose turn it is (R63, R64 of 20_memory.md). -/
def perform (t : Turn) (s : State) : Result :=
  match t with
  | .core => coreTurn s
  | .tick => .next s.tick
  | .key k pressed => keyPort k pressed s
  | .ackRedraw => ackRedraw s
  | .load rom => loadPort rom s
  | .reset => resetPort s

/-- What happens when no turn is scheduled: the core goes on, and where it cannot the run is at a stop point
(R247; log entries 1, 4). -/
def unscheduled (s : State) : Result :=
  match s.run with
  | .running => coreStep s.touch
  | .awaitingKey x => .fault (.waitStop x)
  | .halted kind addr => .fault (.faultStop kind addr)

/-- The turns still to come. -/
def State.setSchedule (s : State) (ts : List Turn) : State := s.setEnv { s.env with schedule := ts }

/-- The next transition in the total order the schedule chooses (R233). -/
def nextTurn (s : State) : Result :=
  match s.env.schedule with
  | [] => unscheduled s
  | t :: ts => perform t (s.setSchedule ts)

/-- Where a fetch can happen: PC itself, or the reset vector when PC is out of range. -/
def State.fetchablePc (s : State) : Word := if s.pc.toNat ≤ Config.lastFetch then s.pc else 0x200

/-- Two bytes in memory where the next fetch reads them, and the core ready to fetch. -/
def State.placeInstr (s : State) (bs : List Byte) : State :=
  let s' := ((s.setPc s.fetchablePc).setRun .running).setSchedule []
  s'.setMem (s'.mem.writeBytes s'.pc.toNat bs)

end Sys2Proof.Machine
end

