-- ==== Sys2Proof/Machine/Step.lean ====
section
/-! DEFINITION. One step of the machine, and an instruction placed where the step fetches. -/

namespace Sys2Proof.Machine

/-- One atomic transition (20_memory.md R64): the next turn's. -/
def step (s : State) : Host.Outcome State Fault Refusal := nextTurn s

/-- The state with the instruction whose bits are `w` (numbered as opcode_table.json numbers them, those from `nbits` on
being 0) where the very next step fetches it: at PC, with the core running and nothing else scheduled (log entry 8). -/
def State.withFetchWord (s : State) (nbits w : Nat) : State :=
  s.placeInstr (bytesOfWord (BitVec.ofNat 16 (w % 2 ^ nbits)))

end Sys2Proof.Machine
end

