-- ==== Sys2Proof/Safety.lean ====
section
/-! DEFINITION. The terms claims use: which elements a step leaves alone, the invariant of the machine, stop points,
launches and fair executions. -/

namespace Sys2Proof.Machine

/-! ### Frames -/

/-- The elements of the state tuple (10_state.md R20) and of the step's parameters. -/
inductive Element where
  | v | i | pc | stack | sp | dt | st | keys | fb | dirty | mem | run | reports | shiftSource | schedule | draws
  | untouched
  deriving DecidableEq, Repr

/-- An element holds the same value in both states; memory and the framebuffer are read one byte, one pixel at a time. -/
def Unchanged (e : Element) (s t : State) : Prop :=
  match e with
  | .v => ∀ r : Reg, t.reg r = s.reg r
  | .i => t.i = s.i
  | .pc => t.pc = s.pc
  | .stack => ∀ k : Fin 16, t.stack[k] = s.stack[k]
  | .sp => t.sp = s.sp
  | .dt => t.dt = s.dt
  | .st => t.st = s.st
  | .keys => ∀ k : Reg, t.keys[k] = s.keys[k]
  | .fb => ∀ (px : Fin 64) (py : Fin 32), t.fb.pixel px py = s.fb.pixel px py
  | .dirty => t.dirty = s.dirty
  | .mem => ∀ a : Nat, t.mem.read a = s.mem.read a
  | .run => t.run = s.run
  | .reports => t.reports = s.reports
  | .shiftSource => t.env.shiftSource = s.env.shiftSource
  | .schedule => t.env.schedule = s.env.schedule
  | .draws => t.env.draws = s.env.draws
  | .untouched => t.env.untouched = s.env.untouched

/-- Every element but the listed ones is unchanged. -/
def ChangesOnly (es : List Element) (s t : State) : Prop := ∀ e, e ∉ es → Unchanged e s t

/-- Every general register but the listed ones is unchanged. -/
def SameRegsExcept (rs : List Reg) (s t : State) : Prop := ∀ r, r ∉ rs → t.reg r = s.reg r

/-- Every byte of memory but those at the listed addresses is unchanged. -/
def SameBytesExcept (as : List Nat) (s t : State) : Prop := ∀ a, a ∉ as → t.mem.read a = s.mem.read a

/-- The byte at an address after the listed stores (address, byte), each to an address of its own: the one stored there, or
the old one where none was (20_memory.md R66). -/
def ByteAfterStores (stores : List (Nat × Byte)) (s : State) (a : Nat) (b : Byte) : Prop :=
  (∀ p ∈ stores, p.1 = a → b = p.2) ∧ ((∀ p ∈ stores, p.1 ≠ a) → b = s.mem.read a)

/-- The elements an instruction may change, from its own rule: everything else is its frame. -/
def mayChange : Instr → List Element
  | .cls => [.fb, .dirty, .pc]
  | .ret => [.sp, .pc, .run]
  | .call _ => [.stack, .sp, .pc, .run]
  | .jp _ | .jpV0 _ => [.pc]
  | .seImm _ _ | .sneImm _ _ | .seReg _ _ | .sneReg _ _ | .skp _ | .sknp _ => [.pc]
  | .ldImm _ _ | .addImm _ _ | .ldReg _ _ | .orReg _ _ | .andReg _ _ | .xorReg _ _ => [.v, .pc]
  | .addReg _ _ | .sub _ _ | .shr _ _ | .subn _ _ | .shl _ _ => [.v, .pc]
  | .ldI _ | .addIVx _ | .ldFVx _ => [.i, .pc]
  | .rnd _ _ => [.v, .draws, .pc]
  | .drw _ _ _ => [.v, .fb, .dirty, .pc]
  | .ldVxDt _ | .ldVxMem _ => [.v, .pc]
  | .ldVxK _ => [.run]
  | .ldDtVx _ => [.dt, .pc]
  | .ldStVx _ => [.st, .pc]
  | .ldBVx _ | .ldMemVx _ => [.mem, .pc]
  | .unknown0 _ | .unknown5 _ | .unknown8 _ | .unknown9 _ | .unknownE _ | .unknownF _ => [.reports, .pc]

/-- The general registers an instruction may write: the ones its rule names, and VF where the rule writes a flag. -/
def writtenRegs : Instr → List Reg
  | .ldImm x _ | .addImm x _ | .ldReg x _ | .orReg x _ | .andReg x _ | .xorReg x _ => [x]
  | .addReg x _ | .sub x _ | .shr x _ | .subn x _ | .shl x _ => [x, VF]
  | .drw _ _ _ => [VF]
  | .rnd x _ | .ldVxDt x => [x]
  | .ldVxMem x => (List.finRange 16).filter (· ≤ x)
  | .cls | .ret | .jp _ | .call _ | .ldI _ | .jpV0 _ => []
  | .seImm _ _ | .sneImm _ _ | .seReg _ _ | .sneReg _ _ | .skp _ | .sknp _ => []
  | .ldVxK _ | .ldDtVx _ | .ldStVx _ | .addIVx _ | .ldFVx _ | .ldBVx _ | .ldMemVx _ => []
  | .unknown0 _ | .unknown5 _ | .unknown8 _ | .unknown9 _ | .unknownE _ | .unknownF _ => []

/-- The instructions that write VF as a side effect (10_state.md R22). -/
def writesFlag : Instr → Bool
  | .addReg _ _ | .sub _ _ | .shr _ _ | .subn _ _ | .shl _ _ | .drw _ _ _ => true
  | .cls | .ret | .jp _ | .call _ | .ldI _ | .jpV0 _ => false
  | .seImm _ _ | .sneImm _ _ | .seReg _ _ | .sneReg _ _ | .skp _ | .sknp _ => false
  | .ldImm _ _ | .addImm _ _ | .ldReg _ _ | .orReg _ _ | .andReg _ _ | .xorReg _ _ | .rnd _ _ => false
  | .ldVxDt _ | .ldVxK _ | .ldDtVx _ | .ldStVx _ | .addIVx _ | .ldFVx _ => false
  | .ldBVx _ | .ldMemVx _ | .ldVxMem _ => false
  | .unknown0 _ | .unknown5 _ | .unknown8 _ | .unknown9 _ | .unknownE _ | .unknownF _ => false

/-- The instructions that write PC otherwise than by adding 2 (40_control_flow.md R100). -/
def rewritesPc : Instr → Bool
  | .jp _ | .call _ | .ret | .jpV0 _ => true
  | .seImm _ _ | .sneImm _ _ | .seReg _ _ | .sneReg _ _ | .skp _ | .sknp _ => true
  | .ldVxK _ => true
  | .cls | .ldI _ | .rnd _ _ | .drw _ _ _ => false
  | .ldImm _ _ | .addImm _ _ | .ldReg _ _ | .orReg _ _ | .andReg _ _ | .xorReg _ _ => false
  | .addReg _ _ | .sub _ _ | .shr _ _ | .subn _ _ | .shl _ _ => false
  | .ldVxDt _ | .ldDtVx _ | .ldStVx _ | .addIVx _ | .ldFVx _ | .ldBVx _ | .ldMemVx _ | .ldVxMem _ => false
  | .unknown0 _ | .unknown5 _ | .unknown8 _ | .unknown9 _ | .unknownE _ | .unknownF _ => false

/-- The instructions that reach memory (20_memory.md R62). -/
def reachesMemory : Instr → Bool
  | .drw _ _ _ | .ldBVx _ | .ldMemVx _ | .ldVxMem _ => true
  | .cls | .ret | .jp _ | .call _ | .ldI _ | .jpV0 _ => false
  | .seImm _ _ | .sneImm _ _ | .seReg _ _ | .sneReg _ _ | .skp _ | .sknp _ => false
  | .ldImm _ _ | .addImm _ _ | .ldReg _ _ | .orReg _ _ | .andReg _ _ | .xorReg _ _ | .rnd _ _ => false
  | .addReg _ _ | .sub _ _ | .shr _ _ | .subn _ _ | .shl _ _ => false
  | .ldVxDt _ | .ldVxK _ | .ldDtVx _ | .ldStVx _ | .addIVx _ | .ldFVx _ => false
  | .unknown0 _ | .unknown5 _ | .unknown8 _ | .unknown9 _ | .unknownE _ | .unknownF _ => false

/-- The sprite of a DRW covers a pixel with a 1 bit (43_display.md R162, R163): some row r and column c of it, the bit
7 - c of the byte at (I + r) & 0xFFF set, lands there, each coordinate wrapped on its own. -/
def SpriteCovers (s : State) (x y : Reg) (n : Nibble) (px : Fin 64) (py : Fin 32) : Prop :=
  ∃ r c : Nat, r < n.toNat ∧ c < 8 ∧ (s.mem.read (dataAddr s.i r)).getLsbD (7 - c) = true ∧
    px.val = ((s.reg x).toNat % 64 + c) % 64 ∧ py.val = ((s.reg y).toNat % 32 + r) % 32

/-! ### The invariant -/

/-- What every transition keeps (10_state.md R24, R39; 44_input.md R184; 60_exceptions.md R221 to R225): memory is
canonical; no PC and no return address exceeds what R24 says; a waiting core's PC still holds its Fx0A; a halted core's
record names its PC and the condition that raised it; a machine to which nothing has happened since its reset still holds
the reset state, but for a ROM in memory (R245). -/
structure Inv (s : State) : Prop where
  mem_wf : s.mem.wf
  pc_le : s.pc.toNat ≤ 0x10FE
  stack_le : ∀ k : Fin 16, (s.stack[k]).toNat ≤ 0x1000
  waiting : ∀ x, s.run = .awaitingKey x → s.pc.toNat ≤ 0xFFE ∧ decodeWord s.fetchWord = .ldVxK x
  overflow : ∀ a, s.run = .halted .stackOverflow a → a = s.pc ∧ s.sp = 16
  underflow : ∀ a, s.run = .halted .stackUnderflow a → a = s.pc ∧ s.sp = 0
  outOfRange : ∀ a, s.run = .halted .pcOutOfRange a → a = s.pc ∧ 0xFFE < s.pc.toNat
  untouched : s.env.untouched = true → (s.setEnv Env.reset).setMem State.reset.mem = State.reset

/-! ### Stop points (60_exceptions.md R247) -/

/-- *Fault stop*: not a success. -/
def FaultStop (s : State) : Prop := ∃ kind addr, s.run = .halted kind addr

/-- The turn is a key event. -/
def IsKeyEvent (t : Turn) : Prop := ∃ k pressed, t = .key k pressed

/-- *Wait stop*: the core waits and the schedule has no further key events; other turns may be left. -/
def WaitStop (s : State) : Prop := (∃ x, s.run = .awaitingKey x) ∧ ∀ t ∈ s.env.schedule, ¬ IsKeyEvent t

/-- *Spin stop at address A*: a jump to itself. -/
def SpinStop (a : Addr12) (s : State) : Prop :=
  s.run = .running ∧ s.pc = zext16 a ∧ s.mem.fetch a.toNat = wordN 0x1 a

/-! ### Launch (70_reset_and_hazards.md R263, R264) -/

/-- The precondition of a claim about a program (R264): the state is Load(rom) applied to the reset state, the load did not
fail, REPORTS is empty and RUN is Running; `turns` follow the load. -/
def Launched (rom : List Byte) (turns : List Turn) (s : State) : Prop :=
  ∃ t, perform (.load rom) State.reset = .next t ∧ t.reports = [] ∧ t.run = .running ∧ s = t.setSchedule turns

/-! ### Executions and fairness (60_exceptions.md R233) -/

/-- An infinite execution: one transition after another, each of the agent whose turn it is. -/
structure Execution where
  state : Nat → State
  turn : Nat → Turn
  stepped : ∀ n, perform (turn n) (state n) = .next (state (n + 1))

/-- *Wait stop* in an execution (R247): the core waits and no later turn is a key event. -/
def WaitStopIn (e : Execution) (n : Nat) : Prop :=
  (∃ x, (e.state n).run = .awaitingKey x) ∧ ∀ m, n ≤ m → ¬ IsKeyEvent (e.turn m)

/-- Every infinite execution contains infinitely many ticks. -/
def TickFair (e : Execution) : Prop := ∀ n, ∃ m, n ≤ m ∧ e.turn m = .tick

/-- Where RUN stays Running from some point on, infinitely many core steps occur. -/
def CoreFair (e : Execution) : Prop :=
  (∃ n, ∀ m, n ≤ m → (e.state m).run = .running) → ∀ n, ∃ m, n ≤ m ∧ e.turn m = .core

/-! ### Safe runs -/

/-- A run of the machine is safe when no number of steps comes to a stop other than the wait stop. -/
def SafeRun (s : State) : Prop :=
  ∀ n, (∃ t, Sys2Proof.core.run n s = .next t ∧ ¬ FaultStop t) ∨ ∃ x, Sys2Proof.core.run n s = .fault (.waitStop x)

end Sys2Proof.Machine
end

