-- ==== Sys2Proof/Certificates/Slice0/Obligations.lean ====
section
/-! DEFINITION. The statements about the machine, from the spec's numbered rules; OBLIGATIONS.json lists them. -/

open Sys2Proof Sys2Proof.Machine

/-! ### Reset -/

/-- 10_state.md R37: every element of the state at reset. -/
def Obligations.ResetStateHoldsSpecValues : Prop :=
  (∀ r : Reg, State.reset.reg r = 0x00) ∧
  State.reset.i = 0x0000 ∧
  State.reset.pc = 0x0200 ∧
  (∀ k : Fin 16, State.reset.stack[k] = 0x0000) ∧
  State.reset.sp = 0 ∧
  State.reset.dt = 0x00 ∧
  State.reset.st = 0x00 ∧
  (∀ k : Reg, State.reset.keys[k] = false) ∧
  (∀ (px : Fin 64) (py : Fin 32), State.reset.fb.pixel px py = false) ∧
  State.reset.dirty = false ∧
  (∀ a < 0x50, State.reset.mem.read a = fontGlyphs.getD a 0) ∧
  (∀ a, 0x50 ≤ a → a ≤ 0xFFF → State.reset.mem.read a = 0x00) ∧
  State.reset.run = .running ∧
  State.reset.reports = []

/-- 20_memory.md R52, R53: glyph k's five rows at reset stand at 5k; the rows are the spec's table (D13, log entry 9). -/
def Obligations.FontGlyphsStandAtFontBase : Prop :=
  ∀ k : Fin 16, (List.range 5).map (fun j => State.reset.mem.read (5 * k.val + j)) =
    (([ [0xF0, 0x90, 0x90, 0x90, 0xF0],
      [0x20, 0x60, 0x20, 0x20, 0x70],
      [0xF0, 0x10, 0xF0, 0x80, 0xF0],
      [0xF0, 0x10, 0xF0, 0x10, 0xF0],
      [0x90, 0x90, 0xF0, 0x10, 0x10],
      [0xF0, 0x80, 0xF0, 0x10, 0xF0],
      [0xF0, 0x80, 0xF0, 0x90, 0xF0],
      [0xF0, 0x10, 0x20, 0x40, 0x40],
      [0xF0, 0x90, 0xF0, 0x90, 0xF0],
      [0xF0, 0x90, 0xF0, 0x10, 0xF0],
      [0xF0, 0x90, 0xF0, 0x90, 0x90],
      [0xE0, 0x90, 0xE0, 0x90, 0xE0],
      [0xF0, 0x80, 0x80, 0x80, 0xF0],
      [0xE0, 0x90, 0x90, 0x90, 0xE0],
      [0xF0, 0x80, 0xF0, 0x80, 0xF0],
      [0xF0, 0x80, 0xF0, 0x80, 0x80] ] : List (List Byte))).getD k.val []

/-! ### Decoding -/

/-- 30_encoding.md R83, R93 and 95_test_vectors.md DEC-1 to DEC-6: words written out from the table. -/
def Obligations.SpecWordsDecode : Prop :=
  decodeWord 0x6244 = .ldImm 2 0x44 ∧ decodeWord 0x3155 = .seImm 1 0x55 ∧ decodeWord 0x8125 = .sub 1 2 ∧
  decodeWord 0xF229 = .ldFVx 2 ∧ decodeWord 0x00E0 = .cls ∧ decodeWord 0x00EE = .ret ∧
  decodeWord 0x1234 = .jp 0x234 ∧ decodeWord 0xBFFF = .jpV0 0xFFF ∧ decodeWord 0xD015 = .drw 0 1 5 ∧
  decodeWord 0xE0A1 = .sknp 0 ∧ decodeWord 0xFF65 = .ldVxMem 0xF ∧ decodeWord 0x0000 = .unknown0 0x0000 ∧
  decodeWord 0x5121 = .unknown5 0x5121 ∧ decodeWord 0x812F = .unknown8 0x812F ∧
  decodeWord 0x912F = .unknown9 0x912F ∧ decodeWord 0xE09F = .unknownE 0xE09F ∧
  decodeWord 0xF085 = .unknownF 0xF085

/-- Every well-formed instruction, with every operand, is what its own bytes decode to, whatever follows them. -/
def Obligations.DecodeInvertsEncode : Prop :=
  ∀ (i : Instr) (rest : List Byte), i.wellFormed = true → decode (encode i ++ rest) = .ok (i, rest)

/-- 30_encoding.md R82, the other direction: every word decodes to a well-formed instruction whose word it is. -/
def Obligations.EncodeInvertsDecode : Prop :=
  ∀ w : Word, (decodeWord w).wellFormed = true ∧ encodeWord (decodeWord w) = w

/-- 30_encoding.md R86: exactly which words are Unknown. -/
def Obligations.UnknownSetIsExact : Prop :=
  ∀ w : Word,
    let op := w.toNat / 0x1000
    let n := w.toNat % 0x10
    let nn := w.toNat % 0x100
    let unknown :=
      (op = 0x0 ∧ w ≠ 0x00E0 ∧ w ≠ 0x00EE) ∨
      ((op = 0x5 ∨ op = 0x9) ∧ n ≠ 0) ∨
      (op = 0x8 ∧ n ∈ [0x8, 0x9, 0xA, 0xB, 0xC, 0xD, 0xF]) ∨
      (op = 0xE ∧ nn ∉ [0x9E, 0xA1]) ∨
      (op = 0xF ∧ nn ∉ [0x07, 0x0A, 0x15, 0x18, 0x1E, 0x29, 0x33, 0x55, 0x65])
    (unknown → (decodeWord w).unknownWord? = some w) ∧ (¬ unknown → (decodeWord w).unknownWord? = none)

/-- 30_encoding.md R83: no word is two instructions. -/
def Obligations.InstructionRowsDisjoint : Prop :=
  ∀ (w : Word), ∀ r ∈ instructionRows, ∀ q ∈ instructionRows,
    rowMatches w r = true → rowMatches w q = true → r.mnemonic = q.mnemonic

/-! ### The core step -/

/-- 60_exceptions.md R220, 20_memory.md R58: a step of the running core, the core's turn scheduled or by default (log
entry 1), is exec of the instruction at PC, or PcOutOfRange; around it the model only records that a core step has come
(`touch`, log entry 5). Where the core is not running its turn changes nothing (log entry 4). -/
def Obligations.StepRunsDecodedInstruction : Prop :=
  ∀ (s u : State), (s.env.schedule = [] ∧ u = s ∨ ∃ ts, s.env.schedule = .core :: ts ∧ u = s.setSchedule ts) →
    (s.run = .running →
      (s.pc.toNat ≤ 0xFFE → ∀ i rest,
        decode [s.mem.read s.pc.toNat, s.mem.read (s.pc.toNat + 1)] = .ok (i, rest) → step s = exec i u.touch) ∧
      (0xFFE < s.pc.toNat → step s = .next { u.touch with run := .halted .pcOutOfRange s.pc })) ∧
    (s.run ≠ .running → ∀ ts, s.env.schedule = .core :: ts → step s = .next u) ∧
    u.touch = { u with env := { u.env with untouched := false } }

/-- 20_memory.md R58, R59: the core step in RUN = Running runs the word that has MEM[pc] as bits 15 to 8 and MEM[pc + 1] as
bits 7 to 0; where PC > 0xFFE it raises PcOutOfRange(PC), and nothing but RUN changes. -/
def Obligations.FetchIsBigEndianInRange : Prop :=
  ∀ (s : State), s.run = .running →
    (s.pc.toNat ≤ 0xFFE → ∀ w : Word,
      s.mem.read s.pc.toNat = w.extractLsb' 8 8 → s.mem.read (s.pc.toNat + 1) = w.extractLsb' 0 8 →
      coreStep s = exec (decodeWord w) s) ∧
    (0xFFE < s.pc.toNat → coreStep s = .next { s with run := .halted .pcOutOfRange s.pc })

/-- 60_exceptions.md R233, R236, R247 in the model's own form (log entries 1, 4, 5): the schedule's next turn is performed;
where none is left the running core moves, a waiting core is at its wait stop and a halted one at its fault stop; a turn
of the running core is a core step, recorded, and a turn of a core that is not running changes nothing. -/
def Obligations.ScheduleChoosesTheTurn : Prop :=
  ∀ s : State,
    (∀ turn ts, s.env.schedule = turn :: ts → step s = perform turn (s.setSchedule ts)) ∧
    (s.env.schedule = [] →
      (s.run = .running → step s = perform .core s) ∧
      (∀ x, s.run = .awaitingKey x → step s = .fault (.waitStop x)) ∧
      (∀ kind addr, s.run = .halted kind addr → step s = .fault (.faultStop kind addr))) ∧
    (s.run = .running → perform .core s = coreStep s.touch) ∧
    (s.run ≠ .running → perform .core s = .next s)

/-- 60_exceptions.md R247: a core step at a spin stop changes nothing, and core steps and ticks stay at it; a fault stop lasts
through every turn but a reset; a wait stop lasts through every step that is no reset. -/
def Obligations.StopPointsLast : Prop :=
  (∀ (a : Addr12) (s : State), SpinStop a s → a.toNat ≤ 0xFFE → coreStep s = .next s ∧
    ∀ turn t, turn = .core ∨ turn = .tick → perform turn s = .next t → SpinStop a t) ∧
  (∀ (turn : Turn) (s t : State) (kind : FaultKind) (addr : Word), s.run = .halted kind addr → turn ≠ .reset →
    perform turn s = .next t → t.run = .halted kind addr) ∧
  (∀ s t : State, WaitStop s → (∀ ts, s.env.schedule ≠ .reset :: ts) → step s = .next t → WaitStop t ∧ t.run = s.run)

/-! ### Control flow -/

/-- 40_control_flow.md R101. -/
def Obligations.JpSetsPc : Prop :=
  ∀ nnn : Addr12, decodeWord (wordN 0b0001 nnn) = .jp nnn ∧
    ∀ s, ∃ t, exec (.jp nnn) s = .next t ∧ t.pc.toNat = nnn.toNat ∧ ChangesOnly [.pc] s t

/-- 40_control_flow.md R102, 60_exceptions.md R223. -/
def Obligations.CallPushesOrOverflows : Prop :=
  ∀ nnn : Addr12, decodeWord (wordN 0b0010 nnn) = .call nnn ∧
    ∀ s : State,
      (∀ h : s.sp.val < 16, ∃ t, exec (.call nnn) s = .next t ∧
        t.stack[s.sp.val] = s.pc + 2 ∧ (∀ k : Fin 16, k.val ≠ s.sp.val → t.stack[k] = s.stack[k]) ∧
        t.sp.val = s.sp.val + 1 ∧ t.pc.toNat = nnn.toNat ∧ ChangesOnly [.stack, .sp, .pc] s t) ∧
      (s.sp.val = 16 → exec (.call nnn) s = .next { s with run := .halted .stackOverflow s.pc })

/-- 40_control_flow.md R103, 60_exceptions.md R224. -/
def Obligations.RetPopsOrUnderflows : Prop :=
  decodeWord 0x00EE = .ret ∧
    ∀ s : State,
      (∀ h : 0 < s.sp.val, ∃ t, exec .ret s = .next t ∧
        t.sp.val + 1 = s.sp.val ∧ t.pc = s.stack[s.sp.val - 1]'(by omega) ∧ ChangesOnly [.sp, .pc] s t) ∧
      (s.sp.val = 0 → exec .ret s = .next { s with run := .halted .stackUnderflow s.pc })

/-- 40_control_flow.md R103, 95_test_vectors.md L5: a call followed at once by a return comes back after the call, at the
call's depth; but for PC only the slot the call pushed may differ. -/
def Obligations.CallThenRetReturns : Prop :=
  ∀ (nnn : Addr12) (s : State), s.sp.val < 16 →
    ∃ t u, exec (.call nnn) s = .next t ∧ exec .ret t = .next u ∧
      u.pc = s.pc + 2 ∧ ChangesOnly [.pc, .stack] s u ∧
      ∀ k : Fin 16, k.val ≠ s.sp.val → u.stack[k] = s.stack[k]

/-- 40_control_flow.md R104 to R107 (and R109 for these four): pc + 4 when the condition holds, else pc + 2. -/
def Obligations.RegisterSkipsMoveFourOrTwo : Prop :=
  ∀ (x y : Reg) (nn : Byte),
    decodeWord (wordXNN 0b0011 x nn) = .seImm x nn ∧ decodeWord (wordXNN 0b0100 x nn) = .sneImm x nn ∧
    decodeWord (wordXYN 0b0101 x y 0b0000) = .seReg x y ∧ decodeWord (wordXYN 0b1001 x y 0b0000) = .sneReg x y ∧
    ∀ s : State,
      (∃ t, exec (.seImm x nn) s = .next t ∧ ChangesOnly [.pc] s t ∧
        (s.reg x = nn → t.pc = s.pc + 4) ∧ (s.reg x ≠ nn → t.pc = s.pc + 2)) ∧
      (∃ t, exec (.sneImm x nn) s = .next t ∧ ChangesOnly [.pc] s t ∧
        (s.reg x ≠ nn → t.pc = s.pc + 4) ∧ (s.reg x = nn → t.pc = s.pc + 2)) ∧
      (∃ t, exec (.seReg x y) s = .next t ∧ ChangesOnly [.pc] s t ∧
        (s.reg x = s.reg y → t.pc = s.pc + 4) ∧ (s.reg x ≠ s.reg y → t.pc = s.pc + 2)) ∧
      (∃ t, exec (.sneReg x y) s = .next t ∧ ChangesOnly [.pc] s t ∧
        (s.reg x ≠ s.reg y → t.pc = s.pc + 4) ∧ (s.reg x = s.reg y → t.pc = s.pc + 2))

/-- 40_control_flow.md R100: every instruction outside R100's list adds 2 to PC. -/
def Obligations.OtherInstructionsAdvanceByTwo : Prop :=
  ∀ (i : Instr) (s : State), rewritesPc i = false → ∃ t, exec i s = .next t ∧ t.pc = s.pc + 2

/-! ### Register load, arithmetic and logic -/

/-- 41_register_alu.md R121, R123. -/
def Obligations.LoadsWriteTheRegister : Prop :=
  ∀ (x y : Reg) (nn : Byte),
    decodeWord (wordXNN 0b0110 x nn) = .ldImm x nn ∧ decodeWord (wordXYN 0b1000 x y 0b0000) = .ldReg x y ∧
    ∀ s : State,
      (∃ t, exec (.ldImm x nn) s = .next t ∧ t.reg x = nn ∧ t.pc = s.pc + 2 ∧
        SameRegsExcept [x] s t ∧ ChangesOnly [.v, .pc] s t) ∧
      (∃ t, exec (.ldReg x y) s = .next t ∧ t.reg x = s.reg y ∧ t.pc = s.pc + 2 ∧
        SameRegsExcept [x] s t ∧ ChangesOnly [.v, .pc] s t)

/-- 41_register_alu.md R122: the sum wraps and no flag is written. -/
def Obligations.AddImmediateWrapsWithoutFlag : Prop :=
  ∀ (x : Reg) (nn : Byte), decodeWord (wordXNN 0b0111 x nn) = .addImm x nn ∧
    ∀ s, ∃ t, exec (.addImm x nn) s = .next t ∧
      (t.reg x).toNat = ((s.reg x).toNat + nn.toNat) % 256 ∧ t.pc = s.pc + 2 ∧
      SameRegsExcept [x] s t ∧ ChangesOnly [.v, .pc] s t

/-- 41_register_alu.md R124 to R126: the result bit by bit, and no flag. -/
def Obligations.LogicWritesNoFlag : Prop :=
  ∀ (x y : Reg),
    decodeWord (wordXYN 0b1000 x y 0b0001) = .orReg x y ∧ decodeWord (wordXYN 0b1000 x y 0b0010) = .andReg x y ∧
    decodeWord (wordXYN 0b1000 x y 0b0011) = .xorReg x y ∧
    ∀ s : State,
      (∃ t, exec (.orReg x y) s = .next t ∧
        (∀ k < 8, (t.reg x).getLsbD k = ((s.reg x).getLsbD k || (s.reg y).getLsbD k)) ∧ t.pc = s.pc + 2 ∧
        SameRegsExcept [x] s t ∧ ChangesOnly [.v, .pc] s t) ∧
      (∃ t, exec (.andReg x y) s = .next t ∧
        (∀ k < 8, (t.reg x).getLsbD k = ((s.reg x).getLsbD k && (s.reg y).getLsbD k)) ∧ t.pc = s.pc + 2 ∧
        SameRegsExcept [x] s t ∧ ChangesOnly [.v, .pc] s t) ∧
      (∃ t, exec (.xorReg x y) s = .next t ∧
        (∀ k < 8, (t.reg x).getLsbD k = ((s.reg x).getLsbD k ^^ (s.reg y).getLsbD k)) ∧ t.pc = s.pc + 2 ∧
        SameRegsExcept [x] s t ∧ ChangesOnly [.v, .pc] s t)

/-- 41_register_alu.md R127: the sum modulo 256 and the carry, the carry written last. -/
def Obligations.AddSetsCarry : Prop :=
  ∀ (x y : Reg), decodeWord (wordXYN 0b1000 x y 0b0100) = .addReg x y ∧
    ∀ s : State, ∃ t, exec (.addReg x y) s = .next t ∧
      (x ≠ VF → (t.reg x).toNat = ((s.reg x).toNat + (s.reg y).toNat) % 256) ∧
      (t.reg VF).toNat = (if (s.reg x).toNat + (s.reg y).toNat > 255 then 1 else 0) ∧ t.pc = s.pc + 2 ∧
      SameRegsExcept [x, VF] s t ∧ ChangesOnly [.v, .pc] s t

/-- 41_register_alu.md R128: the difference modulo 256 and the no-borrow flag, the flag written last. -/
def Obligations.SubSetsNoBorrow : Prop :=
  ∀ (x y : Reg), decodeWord (wordXYN 0b1000 x y 0b0101) = .sub x y ∧
    ∀ s : State, ∃ t, exec (.sub x y) s = .next t ∧
      (x ≠ VF → ((t.reg x).toNat : Int) = (((s.reg x).toNat : Int) - (s.reg y).toNat) % 256) ∧
      (t.reg VF).toNat = (if (s.reg x).toNat ≥ (s.reg y).toNat then 1 else 0) ∧ t.pc = s.pc + 2 ∧
      SameRegsExcept [x, VF] s t ∧ ChangesOnly [.v, .pc] s t

/-- 41_register_alu.md R130: the reversed difference. -/
def Obligations.SubnSetsNoBorrow : Prop :=
  ∀ (x y : Reg), decodeWord (wordXYN 0b1000 x y 0b0111) = .subn x y ∧
    ∀ s : State, ∃ t, exec (.subn x y) s = .next t ∧
      (x ≠ VF → ((t.reg x).toNat : Int) = (((s.reg y).toNat : Int) - (s.reg x).toNat) % 256) ∧
      (t.reg VF).toNat = (if (s.reg y).toNat ≥ (s.reg x).toNat then 1 else 0) ∧ t.pc = s.pc + 2 ∧
      SameRegsExcept [x, VF] s t ∧ ChangesOnly [.v, .pc] s t

/-- 41_register_alu.md R129: for both values of SHIFT_SOURCE. -/
def Obligations.ShrShiftsOutBitZero : Prop :=
  ∀ (x y : Reg), decodeWord (wordXYN 0b1000 x y 0b0110) = .shr x y ∧
    ∀ (s : State) (v : Byte),
      (s.env.shiftSource = .vx → v = s.reg x) → (s.env.shiftSource = .vy → v = s.reg y) →
      ∃ t, exec (.shr x y) s = .next t ∧
        (x ≠ VF → (t.reg x).toNat = v.toNat / 2) ∧ (t.reg VF).toNat = v.toNat % 2 ∧ t.pc = s.pc + 2 ∧
        SameRegsExcept [x, VF] s t ∧ ChangesOnly [.v, .pc] s t

/-- 41_register_alu.md R131: for both values of SHIFT_SOURCE. -/
def Obligations.ShlShiftsOutBitSeven : Prop :=
  ∀ (x y : Reg), decodeWord (wordXYN 0b1000 x y 0b1110) = .shl x y ∧
    ∀ (s : State) (v : Byte),
      (s.env.shiftSource = .vx → v = s.reg x) → (s.env.shiftSource = .vy → v = s.reg y) →
      ∃ t, exec (.shl x y) s = .next t ∧
        (x ≠ VF → (t.reg x).toNat = v.toNat * 2 % 256) ∧ (t.reg VF).toNat = v.toNat / 128 ∧ t.pc = s.pc + 2 ∧
        SameRegsExcept [x, VF] s t ∧ ChangesOnly [.v, .pc] s t

/-- 10_state.md R22: an instruction of R22's list leaves VF 0 or 1; no instruction writes a register its own rule does not
name, VF among them. -/
def Obligations.FlagWritersLeaveVFZeroOrOne : Prop :=
  ∀ (i : Instr) (s : State), ∃ t, exec i s = .next t ∧
    (writesFlag i = true → t.reg VF = 0 ∨ t.reg VF = 1) ∧ SameRegsExcept (writtenRegs i) s t

/-! ### Addressing and randomization -/

/-- 42_addressing_random.md R150. -/
def Obligations.LdISetsIndex : Prop :=
  ∀ nnn : Addr12, decodeWord (wordN 0b1010 nnn) = .ldI nnn ∧
    ∀ s, ∃ t, exec (.ldI nnn) s = .next t ∧ t.i.toNat = nnn.toNat ∧ t.pc = s.pc + 2 ∧ ChangesOnly [.i, .pc] s t

/-- 42_addressing_random.md R151: the sum is not masked. -/
def Obligations.JpV0AddsV0 : Prop :=
  ∀ nnn : Addr12, decodeWord (wordN 0b1011 nnn) = .jpV0 nnn ∧
    ∀ s, ∃ t, exec (.jpV0 nnn) s = .next t ∧ t.pc.toNat = (s.reg 0).toNat + nnn.toNat ∧ t.pc.toNat ≤ 0x10FE ∧
      ChangesOnly [.pc] s t

/-- 42_addressing_random.md R153, R152: the oracle's byte under the mask, whatever the oracle gives; the draw is counted
(log entry 2). -/
def Obligations.RndMasksTheDraw : Prop :=
  ∀ (x : Reg) (nn : Byte), decodeWord (wordXNN 0b1100 x nn) = .rnd x nn ∧
    ∀ s : State, ∃ t, exec (.rnd x nn) s = .next t ∧
      (∀ k < 8, (t.reg x).getLsbD k = ((Config.rngDraw s.env.draws).getLsbD k && nn.getLsbD k)) ∧
      t.reg x &&& ~~~nn = 0 ∧ t.pc = s.pc + 2 ∧ t.env.draws = s.env.draws + 1 ∧
      SameRegsExcept [x] s t ∧ ChangesOnly [.v, .pc, .draws] s t

/-! ### Display -/

/-- 43_display.md R161. -/
def Obligations.ClsClearsAndMarksDirty : Prop :=
  decodeWord 0x00E0 = .cls ∧
    ∀ s, ∃ t, exec .cls s = .next t ∧ (∀ (px : Fin 64) (py : Fin 32), t.fb.pixel px py = false) ∧
      t.dirty = true ∧ t.pc = s.pc + 2 ∧ ChangesOnly [.fb, .dirty, .pc] s t

/-- 43_display.md R162, R163: every covered pixel is toggled, no other; VF is the collision flag. -/
def Obligations.DrwXorsTheSprite : Prop :=
  ∀ (x y : Reg) (n : Nibble), decodeWord (wordXYN 0b1101 x y n) = .drw x y n ∧
    ∀ s : State, ∃ t, exec (.drw x y n) s = .next t ∧
      (∀ (px : Fin 64) (py : Fin 32),
        (SpriteCovers s x y n px py → t.fb.pixel px py = !s.fb.pixel px py) ∧
        (¬ SpriteCovers s x y n px py → t.fb.pixel px py = s.fb.pixel px py)) ∧
      ((∃ px py, SpriteCovers s x y n px py ∧ s.fb.pixel px py = true) → t.reg VF = 1) ∧
      ((¬ ∃ px py, SpriteCovers s x y n px py ∧ s.fb.pixel px py = true) → t.reg VF = 0) ∧
      t.dirty = true ∧ t.pc = s.pc + 2 ∧
      SameRegsExcept [VF] s t ∧ ChangesOnly [.v, .fb, .dirty, .pc] s t

/-- 43_display.md R165: the same draw twice restores the screen; VF then says whether a covered pixel was unlit at first,
and on a clear screen whether the sprite has a 1 bit at all. -/
def Obligations.DrwTwiceRestoresTheScreen : Prop :=
  ∀ (x y : Reg) (n : Nibble) (s t u : State), x ≠ VF → y ≠ VF →
    exec (.drw x y n) s = .next t → exec (.drw x y n) t = .next u →
    (∀ (px : Fin 64) (py : Fin 32), u.fb.pixel px py = s.fb.pixel px py) ∧
    (u.reg VF = 1 ↔ ∃ px py, SpriteCovers s x y n px py ∧ s.fb.pixel px py = false) ∧
    ((∀ (px : Fin 64) (py : Fin 32), s.fb.pixel px py = false) →
      (u.reg VF = 1 ↔ ∃ r < n.toNat, ∃ b < 8, (s.mem.read (dataAddr s.i r)).getLsbD b = true))

/-! ### Input -/

/-- 44_input.md R180 to R182: the key is the low nibble of the register. -/
def Obligations.KeySkipsMoveFourOrTwo : Prop :=
  ∀ x : Reg,
    decodeWord (wordXNN 0b1110 x 0b10011110) = .skp x ∧ decodeWord (wordXNN 0b1110 x 0b10100001) = .sknp x ∧
    ∀ (s : State) (k : Reg), k.val = (s.reg x).toNat % 16 →
      (∃ t, exec (.skp x) s = .next t ∧ ChangesOnly [.pc] s t ∧
        (s.keys[k] = true → t.pc = s.pc + 4) ∧ (s.keys[k] = false → t.pc = s.pc + 2)) ∧
      (∃ t, exec (.sknp x) s = .next t ∧ ChangesOnly [.pc] s t ∧
        (s.keys[k] = false → t.pc = s.pc + 4) ∧ (s.keys[k] = true → t.pc = s.pc + 2))

/-- 44_input.md R183: the wait begins; PC stays at the Fx0A and nothing else changes. -/
def Obligations.KeyWaitSuspendsTheCore : Prop :=
  ∀ x : Reg, decodeWord (wordXNN 0b1111 x 0b00001010) = .ldVxK x ∧
    ∀ s, ∃ t, exec (.ldVxK x) s = .next t ∧ t.run = .awaitingKey x ∧ t.pc = s.pc ∧ ChangesOnly [.run] s t

/-- 60_exceptions.md R241, 44_input.md R184: a key event in every RUN state; a release-to-press edge ends the wait; a key
number outside 0 to 15 is refused at the port, which ends the model's run (log entry 6). An event that changes its key is
recorded (log entry 5). -/
def Obligations.KeyEventUpdatesOrResumes : Prop :=
  ∀ (s : State) (k : Nat) (p : Bool),
    (∀ (h : k < 16) (x : Reg), s.run = .awaitingKey x → p = true → s.keys[k] = false →
      ∃ t, perform (.key k p) s = .next t ∧ t.keys[k] = true ∧ (t.reg x).toNat = k ∧ t.pc = s.pc + 2 ∧ t.run = .running ∧
        (∀ j : Reg, j.val ≠ k → t.keys[j] = s.keys[j]) ∧ SameRegsExcept [x] s t ∧
        ChangesOnly [.keys, .v, .pc, .run, .untouched] s t) ∧
    (∀ h : k < 16, (∀ x, s.run = .awaitingKey x → p = true → s.keys[k] = true) →
      ∃ t, perform (.key k p) s = .next t ∧ t.keys[k] = p ∧ (∀ j : Reg, j.val ≠ k → t.keys[j] = s.keys[j]) ∧
        ChangesOnly [.keys, .untouched] s t) ∧
    (16 ≤ k → perform (.key k p) s = .refused (.keyIndex k))

/-! ### Timers, index arithmetic, font, BCD, bulk memory -/

/-- 45_timer_memory.md R190 to R192, with TONE of 60_exceptions.md R244. -/
def Obligations.TimerInstructionsMoveTheTimers : Prop :=
  ∀ x : Reg,
    decodeWord (wordXNN 0b1111 x 0b00000111) = .ldVxDt x ∧ decodeWord (wordXNN 0b1111 x 0b00010101) = .ldDtVx x ∧
    decodeWord (wordXNN 0b1111 x 0b00011000) = .ldStVx x ∧
    ∀ s : State,
      (∃ t, exec (.ldVxDt x) s = .next t ∧ t.reg x = s.dt ∧ t.pc = s.pc + 2 ∧
        SameRegsExcept [x] s t ∧ ChangesOnly [.v, .pc] s t) ∧
      (∃ t, exec (.ldDtVx x) s = .next t ∧ t.dt = s.reg x ∧ t.pc = s.pc + 2 ∧ ChangesOnly [.dt, .pc] s t) ∧
      (∃ t, exec (.ldStVx x) s = .next t ∧ t.st = s.reg x ∧ (t.tone = true ↔ s.reg x ≠ 0) ∧ t.pc = s.pc + 2 ∧
        ChangesOnly [.st, .pc] s t)

/-- 45_timer_memory.md R193: 16-bit wrap, no flag. -/
def Obligations.AddIWrapsAtSixteenBits : Prop :=
  ∀ x : Reg, decodeWord (wordXNN 0b1111 x 0b00011110) = .addIVx x ∧
    ∀ s : State, ∃ t, exec (.addIVx x) s = .next t ∧ t.i.toNat = (s.i.toNat + (s.reg x).toNat) % 65536 ∧
      t.pc = s.pc + 2 ∧ ChangesOnly [.i, .pc] s t

/-- 45_timer_memory.md R194: five bytes a glyph from FONT_BASE = 0x000, by the low nibble. -/
def Obligations.LdFPointsAtTheGlyph : Prop :=
  ∀ x : Reg, decodeWord (wordXNN 0b1111 x 0b00101001) = .ldFVx x ∧
    ∀ s : State, ∃ t, exec (.ldFVx x) s = .next t ∧ t.i.toNat = 0x000 + 5 * ((s.reg x).toNat % 16) ∧
      t.pc = s.pc + 2 ∧ ChangesOnly [.i, .pc] s t

/-- 45_timer_memory.md R195, in a canonical memory: three digits, and every other byte as before. -/
def Obligations.BcdStoresThreeDigits : Prop :=
  ∀ x : Reg, decodeWord (wordXNN 0b1111 x 0b00110011) = .ldBVx x ∧
    ∀ s : State, s.mem.wf → ∃ t, exec (.ldBVx x) s = .next t ∧
      (t.mem.read (dataAddr s.i 0)).toNat = (s.reg x).toNat / 100 ∧
      (t.mem.read (dataAddr s.i 1)).toNat = (s.reg x).toNat / 10 % 10 ∧
      (t.mem.read (dataAddr s.i 2)).toNat = (s.reg x).toNat % 10 ∧ t.pc = s.pc + 2 ∧
      SameBytesExcept [dataAddr s.i 0, dataAddr s.i 1, dataAddr s.i 2] s t ∧ ChangesOnly [.mem, .pc] s t

/-- 45_timer_memory.md R196, in a canonical memory: V0 to Vx at I and on, and every other byte as before; I unchanged. -/
def Obligations.StoreWritesRegistersInOrder : Prop :=
  ∀ x : Reg, decodeWord (wordXNN 0b1111 x 0b01010101) = .ldMemVx x ∧
    ∀ s : State, s.mem.wf → ∃ t, exec (.ldMemVx x) s = .next t ∧
      (∀ k : Reg, k ≤ x → t.mem.read (dataAddr s.i k.val) = s.reg k) ∧ t.pc = s.pc + 2 ∧
      SameBytesExcept ((List.range (x.val + 1)).map (dataAddr s.i)) s t ∧ ChangesOnly [.mem, .pc] s t

/-- 45_timer_memory.md R197: V0 to Vx from I and on; I unchanged. -/
def Obligations.LoadReadsRegistersInOrder : Prop :=
  ∀ x : Reg, decodeWord (wordXNN 0b1111 x 0b01100101) = .ldVxMem x ∧
    ∀ s : State, ∃ t, exec (.ldVxMem x) s = .next t ∧
      (∀ k : Reg, k ≤ x → t.reg k = s.mem.read (dataAddr s.i k.val)) ∧
      (∀ k : Reg, x < k → t.reg k = s.reg k) ∧ t.pc = s.pc + 2 ∧ ChangesOnly [.v, .pc] s t

/-- 45_timer_memory.md R196, R197: what Fx55 stored, Fx65 loads back, whatever the registers held in between. -/
def Obligations.StoredRegistersLoadBack : Prop :=
  ∀ (x : Reg) (s t u w : State), s.mem.wf → exec (.ldMemVx x) s = .next t → u.mem = t.mem → u.i = t.i →
    exec (.ldVxMem x) u = .next w → ∀ k : Reg, k ≤ x → w.reg k = s.reg k

/-! ### Unknown words -/

/-- 46_unknown.md R210, 60_exceptions.md R226: a report with the word and its address, and the next word; for each of the
six rows, and for every word that decodes to one. -/
def Obligations.UnknownIsReportedAndPassed : Prop :=
  ∀ (w : Word) (s : State),
    (∀ i ∈ [Instr.unknown0 w, Instr.unknown5 w, Instr.unknown8 w, Instr.unknown9 w, Instr.unknownE w, Instr.unknownF w],
      ∃ t, exec i s = .next t ∧ t.reports = s.reports ++ [.unknown w s.pc] ∧ t.pc = s.pc + 2 ∧
        ChangesOnly [.reports, .pc] s t) ∧
    ∀ v, (decodeWord w).unknownWord? = some v → v = w ∧
      ∃ t, exec (decodeWord w) s = .next t ∧ t.reports = s.reports ++ [.unknown w s.pc]

/-! ### The Timer Clock and the host's events -/

/-- 60_exceptions.md R232: a tick, in every RUN state. -/
def Obligations.TickCountsBothTimersDown : Prop :=
  ∀ s : State, ∃ t, perform .tick s = .next t ∧
    t.dt.toNat = (if s.dt.toNat > 0 then s.dt.toNat - 1 else 0) ∧
    t.st.toNat = (if s.st.toNat > 0 then s.st.toNat - 1 else 0) ∧ ChangesOnly [.dt, .st] s t

/-- 60_exceptions.md R243: an acknowledgement, in every RUN state, clears DIRTY and nothing else; no instruction clears it. -/
def Obligations.AckRedrawClearsDirty : Prop :=
  (∀ s : State, ∃ t, perform .ackRedraw s = .next t ∧ t.dirty = false ∧ ChangesOnly [.dirty] s t) ∧
  ∀ (i : Instr) (s : State), s.dirty = true → ∃ t, exec i s = .next t ∧ t.dirty = true

/-- 60_exceptions.md R245, 20_memory.md R54, R68: on the reset state, untouched since the reset, all of the ROM at 0x200, or
a LoadFault; elsewhere the model refuses the load (log entry 5). 70_reset_and_hazards.md R264: a ROM is launched exactly
when it fits. -/
def Obligations.LoadPlacesAllOrFaults : Prop :=
  ∀ (s : State) (rom : List Byte),
    (s.env.untouched = true → s.setEnv Env.reset = State.reset →
      (rom.length ≤ 3584 → ∃ t, perform (.load rom) s = .next t ∧
        (∀ i (h : i < rom.length), t.mem.read (0x200 + i) = rom[i]) ∧
        SameBytesExcept ((List.range rom.length).map (0x200 + ·)) s t ∧ ChangesOnly [.mem] s t) ∧
      (3584 < rom.length → perform (.load rom) s = .fault (.loadFault rom.length))) ∧
    (s.env.untouched = false ∨ s.setEnv Env.reset ≠ State.reset → perform (.load rom) s = .refused .loadNotAtReset) ∧
    ∀ turns, (∃ u, Launched rom turns u) ↔ rom.length ≤ 3584

/-- 60_exceptions.md R246, 70_reset_and_hazards.md R260: from any state, in every RUN state, the reset state; of the step's
parameters, which are no part of the machine's state, the record of log entry 5 starts afresh and the others go on (log
entry 7). -/
def Obligations.ResetReplacesTheWholeState : Prop :=
  ∀ s : State, perform .reset s = .next { State.reset with env := { s.env with untouched := true } }

/-- 60_exceptions.md R234: while the core is halted ticks go on, so TONE is false once there have been ST of them,
whatever key events, acknowledgements and turns of the core come in between. -/
def Obligations.ToneEndsWhileHalted : Prop :=
  ∀ (s : State) (kind : FaultKind) (addr : Word), s.run = .halted kind addr →
    (∀ t ∈ s.env.schedule, t = .tick ∨ t = .core ∨ t = .ackRedraw ∨ ∃ k p, t = .key k p ∧ k < 16) →
    s.st.toNat ≤ s.env.schedule.count .tick →
    ∃ t, Sys2Proof.core.run s.env.schedule.length s = .next t ∧ t.tone = false ∧ t.run = .halted kind addr

/-- 60_exceptions.md R233, R234: in every execution that is fair to the Timer Clock, a halted core that no reset revives
falls silent for good. -/
def Obligations.FairTicksSilenceAHaltedCore : Prop :=
  ∀ (e : Execution) (n : Nat) (kind : FaultKind) (addr : Word), TickFair e → (e.state n).run = .halted kind addr →
    (∀ m, n ≤ m → e.turn m ≠ .reset) → ∃ m, n ≤ m ∧ ∀ k, m ≤ k → (e.state k).tone = false

/-! ### Rules of the whole machine -/

/-- The frame of every instruction: it always completes, and changes nothing outside the elements its rule names. -/
def Obligations.EveryInstructionKeepsItsFrame : Prop :=
  ∀ (i : Instr) (s : State), ∃ t, exec i s = .next t ∧ ChangesOnly (mayChange i) s t

/-- 60_exceptions.md R222 to R224, R229 and 46_unknown.md R211: RUN changes only by the key wait and by the two stack
faults, and a fault changes RUN alone. -/
def Obligations.FaultsArePrecise : Prop :=
  ∀ (i : Instr) (s t : State), exec i s = .next t →
    t.run = s.run ∨
    (∃ x, i = .ldVxK x ∧ t = { s with run := .awaitingKey x }) ∨
    (∃ nnn, i = .call nnn ∧ s.sp.val = 16 ∧ t = { s with run := .halted .stackOverflow s.pc }) ∨
    (i = .ret ∧ s.sp.val = 0 ∧ t = { s with run := .halted .stackUnderflow s.pc })

/-- 20_memory.md R62: an instruction outside R62's list neither reads nor writes memory; Dxyn and Fx65 only read it. -/
def Obligations.OnlyFourInstructionsReachMemory : Prop :=
  ∀ (i : Instr) (s t : State), exec i s = .next t →
    (reachesMemory i = false → t.mem = s.mem ∧ ∀ m : Memory, exec i (s.setMem m) = .next (t.setMem m)) ∧
    ((∃ x y n, i = .drw x y n) ∨ (∃ x, i = .ldVxMem x) → t.mem = s.mem)

/-- 10_state.md R25, R36: a stack slot at or above SP is seen by no instruction. -/
def Obligations.StaleStackSlotsAreUnseen : Prop :=
  ∀ (i : Instr) (s : State) (k : Fin 16) (a : Word), s.sp.val ≤ k.val →
    ∃ t u, exec i s = .next t ∧ exec i (s.setStack (s.stack.set k.val a k.isLt) s.sp) = .next u ∧
      ChangesOnly [.stack] t u ∧ ∀ j : Fin 16, j.val < t.sp.val → u.stack[j] = t.stack[j]

/-- 10_state.md R36: no instruction reads DIRTY or REPORTS. -/
def Obligations.NoInstructionReadsTheOutputs : Prop :=
  ∀ (i : Instr) (s : State) (d : Bool) (rs : List Report),
    ∃ t u, exec i s = .next t ∧ exec i { s with dirty := d, reports := rs } = .next u ∧
      ChangesOnly [.dirty, .reports] t u

/-- 10_state.md R23, 20_memory.md R55: no access to memory sees bits 15 to 12 of I. -/
def Obligations.HighIndexBitsReachNoAddress : Prop :=
  ∀ (i : Instr) (s : State) (a : Word), reachesMemory i = true → a.toNat % 4096 = s.i.toNat % 4096 →
    ∃ t, exec i s = .next t ∧ exec i (s.setI a) = .next (t.setI a)

/-- 20_memory.md R66: what Fx55 or Fx33 stores is what the very next core step fetches, byte by byte: each of the two bytes
at the PC they leave is the stored one where the instruction stored there, and the old one where it did not. -/
def Obligations.StoresAreSeenByTheNextFetch : Prop :=
  ∀ (x : Reg) (s t : State) (hi lo : Byte), s.mem.wf → s.run = .running → t.pc.toNat ≤ 0xFFE →
    (exec (.ldMemVx x) s = .next t →
      ByteAfterStores (((List.finRange 16).filter (· ≤ x)).map fun k => (dataAddr s.i k.val, s.reg k)) s t.pc.toNat hi →
      ByteAfterStores (((List.finRange 16).filter (· ≤ x)).map fun k => (dataAddr s.i k.val, s.reg k)) s (t.pc.toNat + 1) lo →
      coreStep t = exec (decodeWord (hi ++ lo)) t) ∧
    (exec (.ldBVx x) s = .next t → ∀ hundreds tens ones : Byte, hundreds.toNat = (s.reg x).toNat / 100 →
      tens.toNat = (s.reg x).toNat / 10 % 10 → ones.toNat = (s.reg x).toNat % 10 →
      ByteAfterStores [(dataAddr s.i 0, hundreds), (dataAddr s.i 1, tens), (dataAddr s.i 2, ones)] s t.pc.toNat hi →
      ByteAfterStores [(dataAddr s.i 0, hundreds), (dataAddr s.i 1, tens), (dataAddr s.i 2, ones)] s (t.pc.toNat + 1) lo →
      coreStep t = exec (decodeWord (hi ++ lo)) t)

/-! ### Memory as data, and the invariant -/

/-- Equal memories are equal data: two canonical memories that read alike at every address are the same list. -/
def Obligations.CanonicalMemoriesAreEqual : Prop :=
  ∀ m n : Memory, m.wf → n.wf → (∀ a : Nat, a ≤ 0xFFF → m.read a = n.read a) → m = n

/-- The invariant holds at reset. -/
def Obligations.ResetMeetsTheInvariant : Prop := Inv State.reset

/-- 10_state.md R24, R39; 44_input.md R184; 60_exceptions.md R222 to R225: every step, of whichever agent, keeps the
invariant, from every state that has it. -/
def Obligations.EveryStepKeepsTheInvariant : Prop :=
  ∀ s t : State, Inv s → step s = .next t → Inv t

/-! ### When Load may come -/

/-- 60_exceptions.md R245: after a core step, or a key event that changed its key, and until the next reset, whatever comes
in between, no Load is taken (the record is the model's, log entry 5). -/
def Obligations.LoadIsRefusedOnceTouched : Prop :=
  (∀ s t : State, s.run = .running → perform .core s = .next t → t.env.untouched = false) ∧
  (∀ (s t : State) (k : Nat) (p : Bool) (h : k < 16), s.keys[k] ≠ p → perform (.key k p) s = .next t →
    t.env.untouched = false) ∧
  (∀ (turn : Turn) (s t : State), s.env.untouched = false → turn ≠ .reset → perform turn s = .next t →
    t.env.untouched = false) ∧
  (∀ (s : State) (rom : List Byte), s.env.untouched = false → perform (.load rom) s = .refused .loadNotAtReset)
end

