-- ==== Sys2Proof/Laws/Decode.lean ====
section
/-! SUPPORT. The fields of a word as numbers, the fields of the words the encoder builds, and what the opcode table covers. -/

namespace Sys2Proof

/-! ### Fields as numbers -/

theorem opField_toNat (w : Word) : (opField w).toNat = w.toNat / 4096 := by
  have := w.isLt
  simp [opField, Nat.shiftRight_eq_div_pow]; omega

theorem xField_val (w : Word) : (xField w).val = w.toNat / 256 % 16 := by
  simp [xField, Nat.shiftRight_eq_div_pow]

theorem yField_val (w : Word) : (yField w).val = w.toNat / 16 % 16 := by
  simp [yField, Nat.shiftRight_eq_div_pow]

theorem nField_toNat (w : Word) : (nField w).toNat = w.toNat % 16 := by simp [nField]

theorem nnField_toNat (w : Word) : (nnField w).toNat = w.toNat % 256 := by simp [nnField]

theorem nnnField_toNat (w : Word) : (nnnField w).toNat = w.toNat % 4096 := by simp [nnnField]

/-! ### The encoder's words as numbers -/

theorem append_toNat {m n : Nat} (a : BitVec m) (b : BitVec n) : (a ++ b).toNat = a.toNat * 2 ^ n + b.toNat := by
  rw [BitVec.toNat_append, Nat.shiftLeft_eq, Nat.mul_comm, Nat.two_pow_add_eq_or_of_lt b.isLt]

@[simp] theorem regBits_toNat (r : Reg) : (regBits r).toNat = r.val := by
  simp [regBits]

theorem wordN_toNat (op : Nibble) (nnn : Addr12) : (wordN op nnn).toNat = op.toNat * 4096 + nnn.toNat := by
  rw [wordN, append_toNat]; omega

theorem wordXNN_toNat (op : Nibble) (x : Reg) (nn : Byte) :
    (wordXNN op x nn).toNat = op.toNat * 4096 + x.val * 256 + nn.toNat := by
  rw [wordXNN, append_toNat, append_toNat, regBits_toNat]; omega

theorem wordXYN_toNat (op : Nibble) (x y : Reg) (n : Nibble) :
    (wordXYN op x y n).toNat = op.toNat * 4096 + x.val * 256 + y.val * 16 + n.toNat := by
  rw [wordXYN, append_toNat, append_toNat, append_toNat, regBits_toNat, regBits_toNat]; omega

/-! ### The fields of the encoder's words -/

@[simp] theorem opField_wordN (op : Nibble) (nnn : Addr12) : opField (wordN op nnn) = op := by
  have := nnn.isLt
  apply BitVec.eq_of_toNat_eq; rw [opField_toNat, wordN_toNat]; omega

@[simp] theorem nnnField_wordN (op : Nibble) (nnn : Addr12) : nnnField (wordN op nnn) = nnn := by
  have := nnn.isLt
  apply BitVec.eq_of_toNat_eq; rw [nnnField_toNat, wordN_toNat]; omega

@[simp] theorem opField_wordXNN (op : Nibble) (x : Reg) (nn : Byte) : opField (wordXNN op x nn) = op := by
  have := nn.isLt; have := x.isLt
  apply BitVec.eq_of_toNat_eq; rw [opField_toNat, wordXNN_toNat]; omega

@[simp] theorem xField_wordXNN (op : Nibble) (x : Reg) (nn : Byte) : xField (wordXNN op x nn) = x := by
  have := nn.isLt; have := x.isLt
  apply Fin.ext; rw [xField_val, wordXNN_toNat]; omega

@[simp] theorem nnField_wordXNN (op : Nibble) (x : Reg) (nn : Byte) : nnField (wordXNN op x nn) = nn := by
  have := nn.isLt
  apply BitVec.eq_of_toNat_eq; rw [nnField_toNat, wordXNN_toNat]; omega

@[simp] theorem opField_wordXYN (op : Nibble) (x y : Reg) (n : Nibble) : opField (wordXYN op x y n) = op := by
  have := n.isLt; have := x.isLt; have := y.isLt
  apply BitVec.eq_of_toNat_eq; rw [opField_toNat, wordXYN_toNat]; omega

@[simp] theorem xField_wordXYN (op : Nibble) (x y : Reg) (n : Nibble) : xField (wordXYN op x y n) = x := by
  have := n.isLt; have := x.isLt; have := y.isLt
  apply Fin.ext; rw [xField_val, wordXYN_toNat]; omega

@[simp] theorem yField_wordXYN (op : Nibble) (x y : Reg) (n : Nibble) : yField (wordXYN op x y n) = y := by
  have := n.isLt; have := y.isLt
  apply Fin.ext; rw [yField_val, wordXYN_toNat]; omega

@[simp] theorem nField_wordXYN (op : Nibble) (x y : Reg) (n : Nibble) : nField (wordXYN op x y n) = n := by
  have := n.isLt
  apply BitVec.eq_of_toNat_eq; rw [nField_toNat, wordXYN_toNat]; omega

/-! ### Bytes and words -/

@[simp] theorem wordOfBytes_bytesOfWord (w : Word) : wordOfBytes (w.extractLsb' 8 8) (w.extractLsb' 0 8) = w := by
  have := w.isLt
  apply BitVec.eq_of_toNat_eq
  rw [wordOfBytes, append_toNat]
  simp [Nat.shiftRight_eq_div_pow]; omega

/-- Decoding the bytes of a word decodes the word. -/
theorem decode_bytesOfWord (w : Word) (rest : List Byte) :
    decode (bytesOfWord w ++ rest) = .ok (decodeWord w, rest) := by
  simp [bytesOfWord, decode]

/-! ### What the table covers -/

/-- Some row has each family nibble and fixes nothing more. -/
theorem opcodeTable_family (op : Nibble) : ∃ r ∈ opcodeTable, r.op = op ∧ r.sub = .any := by
  have : ∀ k : Fin 16, opcodeTable.any (fun r => r.op == BitVec.ofFin (w := 4) k && r.sub == .any) = true := by decide
  obtain ⟨r, hr, h⟩ := List.any_eq_true.mp (this op.toFin)
  simp only [Bool.and_eq_true, beq_iff_eq] at h
  exact ⟨r, hr, h.1, h.2⟩

/-- Every word is a row's, so `decodeWord` never takes its last arm. -/
theorem opcodeTable_covers (w : Word) : ∃ r, opcodeTable.find? (rowMatches w) = some r := by
  obtain ⟨r, hr, hop, hsub⟩ := opcodeTable_family (opField w)
  refine Option.isSome_iff_exists.mp (List.find?_isSome.mpr ⟨r, hr, ?_⟩)
  simp [rowMatches, hop, hsub, subMatches]

/-- What the decoder answers: the reading of a row the word matches. -/
theorem decodeWord_eq_make (w : Word) : ∃ r ∈ opcodeTable, rowMatches w r = true ∧ decodeWord w = r.make w := by
  obtain ⟨r, h⟩ := opcodeTable_covers w
  exact ⟨r, List.mem_of_find?_eq_some h, List.find?_some h, by simp [decodeWord, h]⟩

end Sys2Proof
end

