-- ==== Sys2Proof/Laws/Memory.lean ====
section
/-! SUPPORT. Everything a memory operation can do: the byte it stores, every other byte unchanged, the canonical form kept. -/

namespace Sys2Proof.Machine

theorem dataAddr_lt (i : Word) (k : Nat) : dataAddr i k < Config.memSize := Nat.mod_lt _ (by decide)

/-! ### Reading after a write -/

theorem Memory.read_insertCell (m : Memory) (a c : Nat) (b : Byte) :
    (Memory.insertCell m a b).read c = if c = a then b else m.read c := by
  induction m with
  | nil => rcases eq_or_ne c a with rfl | h
           · simp [insertCell, read]
           · simp [insertCell, read, h, h.symm]
  | cons p rest ih =>
    obtain ⟨k, d⟩ := p
    simp only [insertCell]
    split
    · rcases eq_or_ne c a with rfl | h
      · simp [read]
      · simp [read, h, h.symm]
    · split
      · subst k
        rcases eq_or_ne c a with rfl | h
        · simp [read]
        · simp [read, h, h.symm]
      · by_cases h : c = a
        · subst c
          have : k ≠ a := fun e => ‹¬ a = k› e.symm
          simp [read, this, ih]
        · simp [read, h, ih]

/-- In a rising list no cell lies at an address below all of it. -/
theorem Memory.read_of_forall_lt (m : Memory) (a : Nat) (h : ∀ c ∈ m, a < c.1) : m.read a = initialByte a := by
  induction m with
  | nil => rfl
  | cons p rest ih =>
    have hp : a < p.1 := h p (by simp)
    have : p.1 ≠ a := by omega
    simp [read, this, ih fun c hc => h c (by simp [hc])]

theorem Memory.read_eraseCell (m : Memory) (a c : Nat) (h : m.Pairwise fun c d => c.1 < d.1) :
    (Memory.eraseCell m a).read c = if c = a then initialByte a else m.read c := by
  induction m with
  | nil => by_cases hc : c = a <;> simp [eraseCell, read, hc]
  | cons p rest ih =>
    obtain ⟨k, d⟩ := p
    obtain ⟨hlt, hrest⟩ := List.pairwise_cons.mp h
    simp only [eraseCell]
    split
    · subst k
      by_cases hc : c = a
      · subst c; simpa using Memory.read_of_forall_lt rest a hlt
      · simp [read, hc, Ne.symm hc]
    · by_cases hc : c = a
      · subst c; simp [read, ‹¬ k = a›, ih hrest]
      · simp [read, hc, ih hrest]

/-- A write stores its byte and leaves every other byte alone. -/
theorem Memory.read_write (m : Memory) (h : m.wf) (a c : Nat) (b : Byte) :
    (Memory.write m a b).read c = if c = a then b else m.read c := by
  unfold write
  split
  · rename_i hb; rw [Memory.read_eraseCell m a c h.1, hb]
  · exact Memory.read_insertCell m a c b

/-! ### The canonical form is kept -/

theorem Memory.mem_insertCell (m : Memory) (a : Nat) (b : Byte) (c : Host.Cell) (hc : c ∈ Memory.insertCell m a b) :
    c = (a, b) ∨ c ∈ m := by
  induction m with
  | nil => simpa [insertCell] using hc
  | cons p rest ih =>
    obtain ⟨k, d⟩ := p
    simp only [insertCell] at hc
    split at hc
    · simpa using hc
    · split at hc
      · rcases List.mem_cons.mp hc with h | h
        · exact .inl h
        · exact .inr (List.mem_cons_of_mem _ h)
      · rcases List.mem_cons.mp hc with h | h
        · exact .inr (by simp [h])
        · exact (ih h).imp id fun h => List.mem_cons_of_mem _ h

theorem Memory.pairwise_insertCell (m : Memory) (a : Nat) (b : Byte) (h : m.Pairwise fun c d => c.1 < d.1) :
    (Memory.insertCell m a b).Pairwise fun c d => c.1 < d.1 := by
  induction m with
  | nil => simp [insertCell]
  | cons p rest ih =>
    obtain ⟨k, d⟩ := p
    have h' := List.pairwise_cons.mp h
    simp only [insertCell]
    split
    · refine List.pairwise_cons.mpr ⟨fun c hc => ?_, h⟩
      rcases List.mem_cons.mp hc with e | hc
      · simpa [e]
      · have := h'.1 c hc; simp only at *; omega
    · split
      · subst k; exact List.pairwise_cons.mpr ⟨h'.1, h'.2⟩
      · refine List.pairwise_cons.mpr ⟨fun c hc => ?_, ih h'.2⟩
        rcases Memory.mem_insertCell rest a b c hc with e | hc
        · subst e; simp only; omega
        · exact h'.1 c hc

theorem Memory.eraseCell_sublist (m : Memory) (a : Nat) : List.Sublist (Memory.eraseCell m a) m := by
  induction m with
  | nil => simp [eraseCell]
  | cons p rest ih =>
    simp only [eraseCell]
    split
    · exact List.sublist_cons_self _ _
    · exact ih.cons_cons _

theorem Memory.wf_write (m : Memory) (h : m.wf) (a : Nat) (ha : a < Config.memSize) (b : Byte) :
    (Memory.write m a b).wf := by
  unfold write
  split
  · have hs := Memory.eraseCell_sublist m a
    exact ⟨h.1.sublist hs, fun c hc => h.2 c (hs.subset hc)⟩
  · refine ⟨Memory.pairwise_insertCell m a b h.1, fun c hc => ?_⟩
    rcases Memory.mem_insertCell m a b c hc with e | hc
    · subst e; exact ⟨ha, ‹_›⟩
    · exact h.2 c hc

theorem Memory.wf_nil : Memory.wf [] := by decide

/-! ### Runs of bytes -/

theorem Memory.wf_writeBytes (m : Memory) (h : m.wf) (a : Nat) (bs : List Byte)
    (ha : a + bs.length ≤ Config.memSize) : (Memory.writeBytes m a bs).wf := by
  induction bs generalizing m a with
  | nil => exact h
  | cons b rest ih =>
    simp only [List.length_cons] at ha
    exact ih _ (Memory.wf_write m h a (by omega) b) _ (by omega)

theorem Memory.read_writeBytes (m : Memory) (h : m.wf) (a : Nat) (bs : List Byte)
    (ha : a + bs.length ≤ Config.memSize) (c : Nat) :
    (Memory.writeBytes m a bs).read c = if h : a ≤ c ∧ c < a + bs.length then bs[c - a]'(by omega) else m.read c := by
  induction bs generalizing m a with
  | nil => simp [writeBytes]
  | cons b rest ih =>
    simp only [List.length_cons] at ha
    simp only [writeBytes]
    rw [ih _ (Memory.wf_write m h a (by omega) b) (a + 1) (by omega), Memory.read_write m h]
    by_cases hc : c = a
    · subst c; simp
    · by_cases h1 : a + 1 ≤ c ∧ c < a + 1 + rest.length
      · have h2 : a ≤ c ∧ c < a + (rest.length + 1) := by omega
        have h3 : c - a = (c - (a + 1)) + 1 := by omega
        simp [h1, h2, h3]
      · have h2 : ¬ (a ≤ c ∧ c < a + (rest.length + 1)) := by omega
        rw [dif_neg h1, dif_neg (by simpa only [List.length_cons] using h2), if_neg hc]

end Sys2Proof.Machine
end

