-- ==== Sys2Proof/Laws/State.lean ====
section
/-! SUPPORT. One lemma per element per setter of Machine/Ops.lean, and the reading of registers and keys after a write. -/

namespace Sys2Proof.Machine

variable (s : State)

/-! ### setReg -/

@[simp] theorem State.setReg_v (r : Reg) (b : Byte) : (s.setReg r b).v = s.v.set r.val b r.isLt := rfl
@[simp] theorem State.setReg_i (r : Reg) (b : Byte) : (s.setReg r b).i = s.i := rfl
@[simp] theorem State.setReg_pc (r : Reg) (b : Byte) : (s.setReg r b).pc = s.pc := rfl
@[simp] theorem State.setReg_stack (r : Reg) (b : Byte) : (s.setReg r b).stack = s.stack := rfl
@[simp] theorem State.setReg_sp (r : Reg) (b : Byte) : (s.setReg r b).sp = s.sp := rfl
@[simp] theorem State.setReg_dt (r : Reg) (b : Byte) : (s.setReg r b).dt = s.dt := rfl
@[simp] theorem State.setReg_st (r : Reg) (b : Byte) : (s.setReg r b).st = s.st := rfl
@[simp] theorem State.setReg_keys (r : Reg) (b : Byte) : (s.setReg r b).keys = s.keys := rfl
@[simp] theorem State.setReg_fb (r : Reg) (b : Byte) : (s.setReg r b).fb = s.fb := rfl
@[simp] theorem State.setReg_dirty (r : Reg) (b : Byte) : (s.setReg r b).dirty = s.dirty := rfl
@[simp] theorem State.setReg_mem (r : Reg) (b : Byte) : (s.setReg r b).mem = s.mem := rfl
@[simp] theorem State.setReg_run (r : Reg) (b : Byte) : (s.setReg r b).run = s.run := rfl
@[simp] theorem State.setReg_reports (r : Reg) (b : Byte) : (s.setReg r b).reports = s.reports := rfl
@[simp] theorem State.setReg_env (r : Reg) (b : Byte) : (s.setReg r b).env = s.env := rfl

/-! ### setI -/

@[simp] theorem State.setI_v (a : Word) : (s.setI a).v = s.v := rfl
@[simp] theorem State.setI_i (a : Word) : (s.setI a).i = a := rfl
@[simp] theorem State.setI_pc (a : Word) : (s.setI a).pc = s.pc := rfl
@[simp] theorem State.setI_stack (a : Word) : (s.setI a).stack = s.stack := rfl
@[simp] theorem State.setI_sp (a : Word) : (s.setI a).sp = s.sp := rfl
@[simp] theorem State.setI_dt (a : Word) : (s.setI a).dt = s.dt := rfl
@[simp] theorem State.setI_st (a : Word) : (s.setI a).st = s.st := rfl
@[simp] theorem State.setI_keys (a : Word) : (s.setI a).keys = s.keys := rfl
@[simp] theorem State.setI_fb (a : Word) : (s.setI a).fb = s.fb := rfl
@[simp] theorem State.setI_dirty (a : Word) : (s.setI a).dirty = s.dirty := rfl
@[simp] theorem State.setI_mem (a : Word) : (s.setI a).mem = s.mem := rfl
@[simp] theorem State.setI_run (a : Word) : (s.setI a).run = s.run := rfl
@[simp] theorem State.setI_reports (a : Word) : (s.setI a).reports = s.reports := rfl
@[simp] theorem State.setI_env (a : Word) : (s.setI a).env = s.env := rfl

/-! ### setPc -/

@[simp] theorem State.setPc_v (a : Word) : (s.setPc a).v = s.v := rfl
@[simp] theorem State.setPc_i (a : Word) : (s.setPc a).i = s.i := rfl
@[simp] theorem State.setPc_pc (a : Word) : (s.setPc a).pc = a := rfl
@[simp] theorem State.setPc_stack (a : Word) : (s.setPc a).stack = s.stack := rfl
@[simp] theorem State.setPc_sp (a : Word) : (s.setPc a).sp = s.sp := rfl
@[simp] theorem State.setPc_dt (a : Word) : (s.setPc a).dt = s.dt := rfl
@[simp] theorem State.setPc_st (a : Word) : (s.setPc a).st = s.st := rfl
@[simp] theorem State.setPc_keys (a : Word) : (s.setPc a).keys = s.keys := rfl
@[simp] theorem State.setPc_fb (a : Word) : (s.setPc a).fb = s.fb := rfl
@[simp] theorem State.setPc_dirty (a : Word) : (s.setPc a).dirty = s.dirty := rfl
@[simp] theorem State.setPc_mem (a : Word) : (s.setPc a).mem = s.mem := rfl
@[simp] theorem State.setPc_run (a : Word) : (s.setPc a).run = s.run := rfl
@[simp] theorem State.setPc_reports (a : Word) : (s.setPc a).reports = s.reports := rfl
@[simp] theorem State.setPc_env (a : Word) : (s.setPc a).env = s.env := rfl

/-! ### setDt -/

@[simp] theorem State.setDt_v (b : Byte) : (s.setDt b).v = s.v := rfl
@[simp] theorem State.setDt_i (b : Byte) : (s.setDt b).i = s.i := rfl
@[simp] theorem State.setDt_pc (b : Byte) : (s.setDt b).pc = s.pc := rfl
@[simp] theorem State.setDt_stack (b : Byte) : (s.setDt b).stack = s.stack := rfl
@[simp] theorem State.setDt_sp (b : Byte) : (s.setDt b).sp = s.sp := rfl
@[simp] theorem State.setDt_dt (b : Byte) : (s.setDt b).dt = b := rfl
@[simp] theorem State.setDt_st (b : Byte) : (s.setDt b).st = s.st := rfl
@[simp] theorem State.setDt_keys (b : Byte) : (s.setDt b).keys = s.keys := rfl
@[simp] theorem State.setDt_fb (b : Byte) : (s.setDt b).fb = s.fb := rfl
@[simp] theorem State.setDt_dirty (b : Byte) : (s.setDt b).dirty = s.dirty := rfl
@[simp] theorem State.setDt_mem (b : Byte) : (s.setDt b).mem = s.mem := rfl
@[simp] theorem State.setDt_run (b : Byte) : (s.setDt b).run = s.run := rfl
@[simp] theorem State.setDt_reports (b : Byte) : (s.setDt b).reports = s.reports := rfl
@[simp] theorem State.setDt_env (b : Byte) : (s.setDt b).env = s.env := rfl

/-! ### setSt -/

@[simp] theorem State.setSt_v (b : Byte) : (s.setSt b).v = s.v := rfl
@[simp] theorem State.setSt_i (b : Byte) : (s.setSt b).i = s.i := rfl
@[simp] theorem State.setSt_pc (b : Byte) : (s.setSt b).pc = s.pc := rfl
@[simp] theorem State.setSt_stack (b : Byte) : (s.setSt b).stack = s.stack := rfl
@[simp] theorem State.setSt_sp (b : Byte) : (s.setSt b).sp = s.sp := rfl
@[simp] theorem State.setSt_dt (b : Byte) : (s.setSt b).dt = s.dt := rfl
@[simp] theorem State.setSt_st (b : Byte) : (s.setSt b).st = b := rfl
@[simp] theorem State.setSt_keys (b : Byte) : (s.setSt b).keys = s.keys := rfl
@[simp] theorem State.setSt_fb (b : Byte) : (s.setSt b).fb = s.fb := rfl
@[simp] theorem State.setSt_dirty (b : Byte) : (s.setSt b).dirty = s.dirty := rfl
@[simp] theorem State.setSt_mem (b : Byte) : (s.setSt b).mem = s.mem := rfl
@[simp] theorem State.setSt_run (b : Byte) : (s.setSt b).run = s.run := rfl
@[simp] theorem State.setSt_reports (b : Byte) : (s.setSt b).reports = s.reports := rfl
@[simp] theorem State.setSt_env (b : Byte) : (s.setSt b).env = s.env := rfl

/-! ### setKey -/

@[simp] theorem State.setKey_v (k : Reg) (p : Bool) : (s.setKey k p).v = s.v := rfl
@[simp] theorem State.setKey_i (k : Reg) (p : Bool) : (s.setKey k p).i = s.i := rfl
@[simp] theorem State.setKey_pc (k : Reg) (p : Bool) : (s.setKey k p).pc = s.pc := rfl
@[simp] theorem State.setKey_stack (k : Reg) (p : Bool) : (s.setKey k p).stack = s.stack := rfl
@[simp] theorem State.setKey_sp (k : Reg) (p : Bool) : (s.setKey k p).sp = s.sp := rfl
@[simp] theorem State.setKey_dt (k : Reg) (p : Bool) : (s.setKey k p).dt = s.dt := rfl
@[simp] theorem State.setKey_st (k : Reg) (p : Bool) : (s.setKey k p).st = s.st := rfl
@[simp] theorem State.setKey_keys (k : Reg) (p : Bool) : (s.setKey k p).keys = s.keys.set k.val p k.isLt := rfl
@[simp] theorem State.setKey_fb (k : Reg) (p : Bool) : (s.setKey k p).fb = s.fb := rfl
@[simp] theorem State.setKey_dirty (k : Reg) (p : Bool) : (s.setKey k p).dirty = s.dirty := rfl
@[simp] theorem State.setKey_mem (k : Reg) (p : Bool) : (s.setKey k p).mem = s.mem := rfl
@[simp] theorem State.setKey_run (k : Reg) (p : Bool) : (s.setKey k p).run = s.run := rfl
@[simp] theorem State.setKey_reports (k : Reg) (p : Bool) : (s.setKey k p).reports = s.reports := rfl
@[simp] theorem State.setKey_env (k : Reg) (p : Bool) : (s.setKey k p).env = s.env := rfl

/-! ### setFb -/

@[simp] theorem State.setFb_v (f : Framebuffer) : (s.setFb f).v = s.v := rfl
@[simp] theorem State.setFb_i (f : Framebuffer) : (s.setFb f).i = s.i := rfl
@[simp] theorem State.setFb_pc (f : Framebuffer) : (s.setFb f).pc = s.pc := rfl
@[simp] theorem State.setFb_stack (f : Framebuffer) : (s.setFb f).stack = s.stack := rfl
@[simp] theorem State.setFb_sp (f : Framebuffer) : (s.setFb f).sp = s.sp := rfl
@[simp] theorem State.setFb_dt (f : Framebuffer) : (s.setFb f).dt = s.dt := rfl
@[simp] theorem State.setFb_st (f : Framebuffer) : (s.setFb f).st = s.st := rfl
@[simp] theorem State.setFb_keys (f : Framebuffer) : (s.setFb f).keys = s.keys := rfl
@[simp] theorem State.setFb_fb (f : Framebuffer) : (s.setFb f).fb = f := rfl
@[simp] theorem State.setFb_dirty (f : Framebuffer) : (s.setFb f).dirty = s.dirty := rfl
@[simp] theorem State.setFb_mem (f : Framebuffer) : (s.setFb f).mem = s.mem := rfl
@[simp] theorem State.setFb_run (f : Framebuffer) : (s.setFb f).run = s.run := rfl
@[simp] theorem State.setFb_reports (f : Framebuffer) : (s.setFb f).reports = s.reports := rfl
@[simp] theorem State.setFb_env (f : Framebuffer) : (s.setFb f).env = s.env := rfl

/-! ### setDirty -/

@[simp] theorem State.setDirty_v (d : Bool) : (s.setDirty d).v = s.v := rfl
@[simp] theorem State.setDirty_i (d : Bool) : (s.setDirty d).i = s.i := rfl
@[simp] theorem State.setDirty_pc (d : Bool) : (s.setDirty d).pc = s.pc := rfl
@[simp] theorem State.setDirty_stack (d : Bool) : (s.setDirty d).stack = s.stack := rfl
@[simp] theorem State.setDirty_sp (d : Bool) : (s.setDirty d).sp = s.sp := rfl
@[simp] theorem State.setDirty_dt (d : Bool) : (s.setDirty d).dt = s.dt := rfl
@[simp] theorem State.setDirty_st (d : Bool) : (s.setDirty d).st = s.st := rfl
@[simp] theorem State.setDirty_keys (d : Bool) : (s.setDirty d).keys = s.keys := rfl
@[simp] theorem State.setDirty_fb (d : Bool) : (s.setDirty d).fb = s.fb := rfl
@[simp] theorem State.setDirty_dirty (d : Bool) : (s.setDirty d).dirty = d := rfl
@[simp] theorem State.setDirty_mem (d : Bool) : (s.setDirty d).mem = s.mem := rfl
@[simp] theorem State.setDirty_run (d : Bool) : (s.setDirty d).run = s.run := rfl
@[simp] theorem State.setDirty_reports (d : Bool) : (s.setDirty d).reports = s.reports := rfl
@[simp] theorem State.setDirty_env (d : Bool) : (s.setDirty d).env = s.env := rfl

/-! ### setMem -/

@[simp] theorem State.setMem_v (m : Memory) : (s.setMem m).v = s.v := rfl
@[simp] theorem State.setMem_i (m : Memory) : (s.setMem m).i = s.i := rfl
@[simp] theorem State.setMem_pc (m : Memory) : (s.setMem m).pc = s.pc := rfl
@[simp] theorem State.setMem_stack (m : Memory) : (s.setMem m).stack = s.stack := rfl
@[simp] theorem State.setMem_sp (m : Memory) : (s.setMem m).sp = s.sp := rfl
@[simp] theorem State.setMem_dt (m : Memory) : (s.setMem m).dt = s.dt := rfl
@[simp] theorem State.setMem_st (m : Memory) : (s.setMem m).st = s.st := rfl
@[simp] theorem State.setMem_keys (m : Memory) : (s.setMem m).keys = s.keys := rfl
@[simp] theorem State.setMem_fb (m : Memory) : (s.setMem m).fb = s.fb := rfl
@[simp] theorem State.setMem_dirty (m : Memory) : (s.setMem m).dirty = s.dirty := rfl
@[simp] theorem State.setMem_mem (m : Memory) : (s.setMem m).mem = m := rfl
@[simp] theorem State.setMem_run (m : Memory) : (s.setMem m).run = s.run := rfl
@[simp] theorem State.setMem_reports (m : Memory) : (s.setMem m).reports = s.reports := rfl
@[simp] theorem State.setMem_env (m : Memory) : (s.setMem m).env = s.env := rfl

/-! ### setRun -/

@[simp] theorem State.setRun_v (r : RunState) : (s.setRun r).v = s.v := rfl
@[simp] theorem State.setRun_i (r : RunState) : (s.setRun r).i = s.i := rfl
@[simp] theorem State.setRun_pc (r : RunState) : (s.setRun r).pc = s.pc := rfl
@[simp] theorem State.setRun_stack (r : RunState) : (s.setRun r).stack = s.stack := rfl
@[simp] theorem State.setRun_sp (r : RunState) : (s.setRun r).sp = s.sp := rfl
@[simp] theorem State.setRun_dt (r : RunState) : (s.setRun r).dt = s.dt := rfl
@[simp] theorem State.setRun_st (r : RunState) : (s.setRun r).st = s.st := rfl
@[simp] theorem State.setRun_keys (r : RunState) : (s.setRun r).keys = s.keys := rfl
@[simp] theorem State.setRun_fb (r : RunState) : (s.setRun r).fb = s.fb := rfl
@[simp] theorem State.setRun_dirty (r : RunState) : (s.setRun r).dirty = s.dirty := rfl
@[simp] theorem State.setRun_mem (r : RunState) : (s.setRun r).mem = s.mem := rfl
@[simp] theorem State.setRun_run (r : RunState) : (s.setRun r).run = r := rfl
@[simp] theorem State.setRun_reports (r : RunState) : (s.setRun r).reports = s.reports := rfl
@[simp] theorem State.setRun_env (r : RunState) : (s.setRun r).env = s.env := rfl

/-! ### setStack -/

@[simp] theorem State.setStack_v (k : Vector Word 16) (p : Fin 17) : (s.setStack k p).v = s.v := rfl
@[simp] theorem State.setStack_i (k : Vector Word 16) (p : Fin 17) : (s.setStack k p).i = s.i := rfl
@[simp] theorem State.setStack_pc (k : Vector Word 16) (p : Fin 17) : (s.setStack k p).pc = s.pc := rfl
@[simp] theorem State.setStack_stack (k : Vector Word 16) (p : Fin 17) : (s.setStack k p).stack = k := rfl
@[simp] theorem State.setStack_sp (k : Vector Word 16) (p : Fin 17) : (s.setStack k p).sp = p := rfl
@[simp] theorem State.setStack_dt (k : Vector Word 16) (p : Fin 17) : (s.setStack k p).dt = s.dt := rfl
@[simp] theorem State.setStack_st (k : Vector Word 16) (p : Fin 17) : (s.setStack k p).st = s.st := rfl
@[simp] theorem State.setStack_keys (k : Vector Word 16) (p : Fin 17) : (s.setStack k p).keys = s.keys := rfl
@[simp] theorem State.setStack_fb (k : Vector Word 16) (p : Fin 17) : (s.setStack k p).fb = s.fb := rfl
@[simp] theorem State.setStack_dirty (k : Vector Word 16) (p : Fin 17) : (s.setStack k p).dirty = s.dirty := rfl
@[simp] theorem State.setStack_mem (k : Vector Word 16) (p : Fin 17) : (s.setStack k p).mem = s.mem := rfl
@[simp] theorem State.setStack_run (k : Vector Word 16) (p : Fin 17) : (s.setStack k p).run = s.run := rfl
@[simp] theorem State.setStack_reports (k : Vector Word 16) (p : Fin 17) : (s.setStack k p).reports = s.reports := rfl
@[simp] theorem State.setStack_env (k : Vector Word 16) (p : Fin 17) : (s.setStack k p).env = s.env := rfl

/-! ### addReport -/

@[simp] theorem State.addReport_v (r : Report) : (s.addReport r).v = s.v := rfl
@[simp] theorem State.addReport_i (r : Report) : (s.addReport r).i = s.i := rfl
@[simp] theorem State.addReport_pc (r : Report) : (s.addReport r).pc = s.pc := rfl
@[simp] theorem State.addReport_stack (r : Report) : (s.addReport r).stack = s.stack := rfl
@[simp] theorem State.addReport_sp (r : Report) : (s.addReport r).sp = s.sp := rfl
@[simp] theorem State.addReport_dt (r : Report) : (s.addReport r).dt = s.dt := rfl
@[simp] theorem State.addReport_st (r : Report) : (s.addReport r).st = s.st := rfl
@[simp] theorem State.addReport_keys (r : Report) : (s.addReport r).keys = s.keys := rfl
@[simp] theorem State.addReport_fb (r : Report) : (s.addReport r).fb = s.fb := rfl
@[simp] theorem State.addReport_dirty (r : Report) : (s.addReport r).dirty = s.dirty := rfl
@[simp] theorem State.addReport_mem (r : Report) : (s.addReport r).mem = s.mem := rfl
@[simp] theorem State.addReport_run (r : Report) : (s.addReport r).run = s.run := rfl
@[simp] theorem State.addReport_reports (r : Report) : (s.addReport r).reports = s.reports ++ [r] := rfl
@[simp] theorem State.addReport_env (r : Report) : (s.addReport r).env = s.env := rfl

/-! ### setEnv -/

@[simp] theorem State.setEnv_v (e : Env) : (s.setEnv e).v = s.v := rfl
@[simp] theorem State.setEnv_i (e : Env) : (s.setEnv e).i = s.i := rfl
@[simp] theorem State.setEnv_pc (e : Env) : (s.setEnv e).pc = s.pc := rfl
@[simp] theorem State.setEnv_stack (e : Env) : (s.setEnv e).stack = s.stack := rfl
@[simp] theorem State.setEnv_sp (e : Env) : (s.setEnv e).sp = s.sp := rfl
@[simp] theorem State.setEnv_dt (e : Env) : (s.setEnv e).dt = s.dt := rfl
@[simp] theorem State.setEnv_st (e : Env) : (s.setEnv e).st = s.st := rfl
@[simp] theorem State.setEnv_keys (e : Env) : (s.setEnv e).keys = s.keys := rfl
@[simp] theorem State.setEnv_fb (e : Env) : (s.setEnv e).fb = s.fb := rfl
@[simp] theorem State.setEnv_dirty (e : Env) : (s.setEnv e).dirty = s.dirty := rfl
@[simp] theorem State.setEnv_mem (e : Env) : (s.setEnv e).mem = s.mem := rfl
@[simp] theorem State.setEnv_run (e : Env) : (s.setEnv e).run = s.run := rfl
@[simp] theorem State.setEnv_reports (e : Env) : (s.setEnv e).reports = s.reports := rfl
@[simp] theorem State.setEnv_env (e : Env) : (s.setEnv e).env = e := rfl

/-! ### Registers and keys -/

@[simp] theorem State.reg_setReg_same (r : Reg) (b : Byte) : (s.setReg r b).reg r = b := by
  simp [State.reg]

theorem State.reg_setReg_ne {r q : Reg} (h : q ≠ r) (b : Byte) : (s.setReg r b).reg q = s.reg q := by
  have : r.val ≠ q.val := fun e => h (Fin.ext e.symm)
  simp [State.reg, this]

theorem State.reg_setReg (r q : Reg) (b : Byte) : (s.setReg r b).reg q = if q = r then b else s.reg q := by
  split
  · subst q; exact State.reg_setReg_same s r b
  · exact State.reg_setReg_ne s ‹_› b

/-- Reading a register looks at V alone. -/
theorem State.reg_congr {s t : State} (h : t.v = s.v) (r : Reg) : t.reg r = s.reg r := by
  simp [State.reg, h]

theorem State.reg_setResultFlag (x q : Reg) (b f : Byte) :
    (s.setResultFlag x b f).reg q = if q = VF then f else if q = x then b else s.reg q := by
  simp only [State.setResultFlag, State.reg_setReg]

theorem State.reg_loadRegs (x q : Reg) :
    (s.loadRegs x).reg q = if q ≤ x then s.readI q.val else s.reg q := by
  simp [State.loadRegs, State.reg]

theorem State.keys_setKey (k j : Reg) (p : Bool) : (s.setKey k p).keys[j] = if j = k then p else s.keys[j] := by
  by_cases h : j = k
  · subst j; simp
  · have : k.val ≠ j.val := fun e => h (Fin.ext e.symm)
    simp [h, this]

/-! ### The composite operations, by the setters they are made of -/

/-! setResultFlag -/

@[simp] theorem State.setResultFlag_i (x : Reg) (b f : Byte) : (s.setResultFlag x b f).i = s.i := rfl
@[simp] theorem State.setResultFlag_pc (x : Reg) (b f : Byte) : (s.setResultFlag x b f).pc = s.pc := rfl
@[simp] theorem State.setResultFlag_stack (x : Reg) (b f : Byte) : (s.setResultFlag x b f).stack = s.stack := rfl
@[simp] theorem State.setResultFlag_sp (x : Reg) (b f : Byte) : (s.setResultFlag x b f).sp = s.sp := rfl
@[simp] theorem State.setResultFlag_dt (x : Reg) (b f : Byte) : (s.setResultFlag x b f).dt = s.dt := rfl
@[simp] theorem State.setResultFlag_st (x : Reg) (b f : Byte) : (s.setResultFlag x b f).st = s.st := rfl
@[simp] theorem State.setResultFlag_keys (x : Reg) (b f : Byte) : (s.setResultFlag x b f).keys = s.keys := rfl
@[simp] theorem State.setResultFlag_fb (x : Reg) (b f : Byte) : (s.setResultFlag x b f).fb = s.fb := rfl
@[simp] theorem State.setResultFlag_dirty (x : Reg) (b f : Byte) : (s.setResultFlag x b f).dirty = s.dirty := rfl
@[simp] theorem State.setResultFlag_mem (x : Reg) (b f : Byte) : (s.setResultFlag x b f).mem = s.mem := rfl
@[simp] theorem State.setResultFlag_run (x : Reg) (b f : Byte) : (s.setResultFlag x b f).run = s.run := rfl
@[simp] theorem State.setResultFlag_reports (x : Reg) (b f : Byte) : (s.setResultFlag x b f).reports = s.reports := rfl
@[simp] theorem State.setResultFlag_env (x : Reg) (b f : Byte) : (s.setResultFlag x b f).env = s.env := rfl

/-! advance -/

@[simp] theorem State.advance_v : (s.advance).v = s.v := rfl
@[simp] theorem State.advance_i : (s.advance).i = s.i := rfl
@[simp] theorem State.advance_pc : (s.advance).pc = s.pc + 2 := rfl
@[simp] theorem State.advance_stack : (s.advance).stack = s.stack := rfl
@[simp] theorem State.advance_sp : (s.advance).sp = s.sp := rfl
@[simp] theorem State.advance_dt : (s.advance).dt = s.dt := rfl
@[simp] theorem State.advance_st : (s.advance).st = s.st := rfl
@[simp] theorem State.advance_keys : (s.advance).keys = s.keys := rfl
@[simp] theorem State.advance_fb : (s.advance).fb = s.fb := rfl
@[simp] theorem State.advance_dirty : (s.advance).dirty = s.dirty := rfl
@[simp] theorem State.advance_mem : (s.advance).mem = s.mem := rfl
@[simp] theorem State.advance_run : (s.advance).run = s.run := rfl
@[simp] theorem State.advance_reports : (s.advance).reports = s.reports := rfl
@[simp] theorem State.advance_env : (s.advance).env = s.env := rfl

/-! skipIf -/

@[simp] theorem State.skipIf_v (c : Bool) : (s.skipIf c).v = s.v := rfl
@[simp] theorem State.skipIf_i (c : Bool) : (s.skipIf c).i = s.i := rfl
@[simp] theorem State.skipIf_pc (c : Bool) : (s.skipIf c).pc = if c then s.pc + 4 else s.pc + 2 := rfl
@[simp] theorem State.skipIf_stack (c : Bool) : (s.skipIf c).stack = s.stack := rfl
@[simp] theorem State.skipIf_sp (c : Bool) : (s.skipIf c).sp = s.sp := rfl
@[simp] theorem State.skipIf_dt (c : Bool) : (s.skipIf c).dt = s.dt := rfl
@[simp] theorem State.skipIf_st (c : Bool) : (s.skipIf c).st = s.st := rfl
@[simp] theorem State.skipIf_keys (c : Bool) : (s.skipIf c).keys = s.keys := rfl
@[simp] theorem State.skipIf_fb (c : Bool) : (s.skipIf c).fb = s.fb := rfl
@[simp] theorem State.skipIf_dirty (c : Bool) : (s.skipIf c).dirty = s.dirty := rfl
@[simp] theorem State.skipIf_mem (c : Bool) : (s.skipIf c).mem = s.mem := rfl
@[simp] theorem State.skipIf_run (c : Bool) : (s.skipIf c).run = s.run := rfl
@[simp] theorem State.skipIf_reports (c : Bool) : (s.skipIf c).reports = s.reports := rfl
@[simp] theorem State.skipIf_env (c : Bool) : (s.skipIf c).env = s.env := rfl

/-! raise -/

@[simp] theorem State.raise_v (k : FaultKind) : (s.raise k).v = s.v := rfl
@[simp] theorem State.raise_i (k : FaultKind) : (s.raise k).i = s.i := rfl
@[simp] theorem State.raise_pc (k : FaultKind) : (s.raise k).pc = s.pc := rfl
@[simp] theorem State.raise_stack (k : FaultKind) : (s.raise k).stack = s.stack := rfl
@[simp] theorem State.raise_sp (k : FaultKind) : (s.raise k).sp = s.sp := rfl
@[simp] theorem State.raise_dt (k : FaultKind) : (s.raise k).dt = s.dt := rfl
@[simp] theorem State.raise_st (k : FaultKind) : (s.raise k).st = s.st := rfl
@[simp] theorem State.raise_keys (k : FaultKind) : (s.raise k).keys = s.keys := rfl
@[simp] theorem State.raise_fb (k : FaultKind) : (s.raise k).fb = s.fb := rfl
@[simp] theorem State.raise_dirty (k : FaultKind) : (s.raise k).dirty = s.dirty := rfl
@[simp] theorem State.raise_mem (k : FaultKind) : (s.raise k).mem = s.mem := rfl
@[simp] theorem State.raise_run (k : FaultKind) : (s.raise k).run = .halted k s.pc := rfl
@[simp] theorem State.raise_reports (k : FaultKind) : (s.raise k).reports = s.reports := rfl
@[simp] theorem State.raise_env (k : FaultKind) : (s.raise k).env = s.env := rfl

/-! reportUnknown -/

@[simp] theorem State.reportUnknown_v (w : Word) : (s.reportUnknown w).v = s.v := rfl
@[simp] theorem State.reportUnknown_i (w : Word) : (s.reportUnknown w).i = s.i := rfl
@[simp] theorem State.reportUnknown_pc (w : Word) : (s.reportUnknown w).pc = s.pc := rfl
@[simp] theorem State.reportUnknown_stack (w : Word) : (s.reportUnknown w).stack = s.stack := rfl
@[simp] theorem State.reportUnknown_sp (w : Word) : (s.reportUnknown w).sp = s.sp := rfl
@[simp] theorem State.reportUnknown_dt (w : Word) : (s.reportUnknown w).dt = s.dt := rfl
@[simp] theorem State.reportUnknown_st (w : Word) : (s.reportUnknown w).st = s.st := rfl
@[simp] theorem State.reportUnknown_keys (w : Word) : (s.reportUnknown w).keys = s.keys := rfl
@[simp] theorem State.reportUnknown_fb (w : Word) : (s.reportUnknown w).fb = s.fb := rfl
@[simp] theorem State.reportUnknown_dirty (w : Word) : (s.reportUnknown w).dirty = s.dirty := rfl
@[simp] theorem State.reportUnknown_mem (w : Word) : (s.reportUnknown w).mem = s.mem := rfl
@[simp] theorem State.reportUnknown_run (w : Word) : (s.reportUnknown w).run = s.run := rfl
@[simp] theorem State.reportUnknown_reports (w : Word) : (s.reportUnknown w).reports = s.reports ++ [.unknown w s.pc] := rfl
@[simp] theorem State.reportUnknown_env (w : Word) : (s.reportUnknown w).env = s.env := rfl

/-! countDraw -/

@[simp] theorem State.countDraw_v : (s.countDraw).v = s.v := rfl
@[simp] theorem State.countDraw_i : (s.countDraw).i = s.i := rfl
@[simp] theorem State.countDraw_pc : (s.countDraw).pc = s.pc := rfl
@[simp] theorem State.countDraw_stack : (s.countDraw).stack = s.stack := rfl
@[simp] theorem State.countDraw_sp : (s.countDraw).sp = s.sp := rfl
@[simp] theorem State.countDraw_dt : (s.countDraw).dt = s.dt := rfl
@[simp] theorem State.countDraw_st : (s.countDraw).st = s.st := rfl
@[simp] theorem State.countDraw_keys : (s.countDraw).keys = s.keys := rfl
@[simp] theorem State.countDraw_fb : (s.countDraw).fb = s.fb := rfl
@[simp] theorem State.countDraw_dirty : (s.countDraw).dirty = s.dirty := rfl
@[simp] theorem State.countDraw_mem : (s.countDraw).mem = s.mem := rfl
@[simp] theorem State.countDraw_run : (s.countDraw).run = s.run := rfl
@[simp] theorem State.countDraw_reports : (s.countDraw).reports = s.reports := rfl
@[simp] theorem State.countDraw_env : (s.countDraw).env = { s.env with draws := s.env.draws + 1 } := rfl

/-! loadRegs -/

@[simp] theorem State.loadRegs_i (x : Reg) : (s.loadRegs x).i = s.i := rfl
@[simp] theorem State.loadRegs_pc (x : Reg) : (s.loadRegs x).pc = s.pc := rfl
@[simp] theorem State.loadRegs_stack (x : Reg) : (s.loadRegs x).stack = s.stack := rfl
@[simp] theorem State.loadRegs_sp (x : Reg) : (s.loadRegs x).sp = s.sp := rfl
@[simp] theorem State.loadRegs_dt (x : Reg) : (s.loadRegs x).dt = s.dt := rfl
@[simp] theorem State.loadRegs_st (x : Reg) : (s.loadRegs x).st = s.st := rfl
@[simp] theorem State.loadRegs_keys (x : Reg) : (s.loadRegs x).keys = s.keys := rfl
@[simp] theorem State.loadRegs_fb (x : Reg) : (s.loadRegs x).fb = s.fb := rfl
@[simp] theorem State.loadRegs_dirty (x : Reg) : (s.loadRegs x).dirty = s.dirty := rfl
@[simp] theorem State.loadRegs_mem (x : Reg) : (s.loadRegs x).mem = s.mem := rfl
@[simp] theorem State.loadRegs_run (x : Reg) : (s.loadRegs x).run = s.run := rfl
@[simp] theorem State.loadRegs_reports (x : Reg) : (s.loadRegs x).reports = s.reports := rfl
@[simp] theorem State.loadRegs_env (x : Reg) : (s.loadRegs x).env = s.env := rfl

/-! writeI -/

@[simp] theorem State.writeI_v (k : Nat) (b : Byte) : (s.writeI k b).v = s.v := rfl
@[simp] theorem State.writeI_i (k : Nat) (b : Byte) : (s.writeI k b).i = s.i := rfl
@[simp] theorem State.writeI_pc (k : Nat) (b : Byte) : (s.writeI k b).pc = s.pc := rfl
@[simp] theorem State.writeI_stack (k : Nat) (b : Byte) : (s.writeI k b).stack = s.stack := rfl
@[simp] theorem State.writeI_sp (k : Nat) (b : Byte) : (s.writeI k b).sp = s.sp := rfl
@[simp] theorem State.writeI_dt (k : Nat) (b : Byte) : (s.writeI k b).dt = s.dt := rfl
@[simp] theorem State.writeI_st (k : Nat) (b : Byte) : (s.writeI k b).st = s.st := rfl
@[simp] theorem State.writeI_keys (k : Nat) (b : Byte) : (s.writeI k b).keys = s.keys := rfl
@[simp] theorem State.writeI_fb (k : Nat) (b : Byte) : (s.writeI k b).fb = s.fb := rfl
@[simp] theorem State.writeI_dirty (k : Nat) (b : Byte) : (s.writeI k b).dirty = s.dirty := rfl
@[simp] theorem State.writeI_mem (k : Nat) (b : Byte) : (s.writeI k b).mem = s.mem.write (dataAddr s.i k) b := rfl
@[simp] theorem State.writeI_run (k : Nat) (b : Byte) : (s.writeI k b).run = s.run := rfl
@[simp] theorem State.writeI_reports (k : Nat) (b : Byte) : (s.writeI k b).reports = s.reports := rfl
@[simp] theorem State.writeI_env (k : Nat) (b : Byte) : (s.writeI k b).env = s.env := rfl

/-! note, touch, the step's parameters -/

@[simp] theorem State.note_v (c : Bool) : (s.note c).v = s.v := rfl
@[simp] theorem State.note_i (c : Bool) : (s.note c).i = s.i := rfl
@[simp] theorem State.note_pc (c : Bool) : (s.note c).pc = s.pc := rfl
@[simp] theorem State.note_stack (c : Bool) : (s.note c).stack = s.stack := rfl
@[simp] theorem State.note_sp (c : Bool) : (s.note c).sp = s.sp := rfl
@[simp] theorem State.note_dt (c : Bool) : (s.note c).dt = s.dt := rfl
@[simp] theorem State.note_st (c : Bool) : (s.note c).st = s.st := rfl
@[simp] theorem State.note_keys (c : Bool) : (s.note c).keys = s.keys := rfl
@[simp] theorem State.note_fb (c : Bool) : (s.note c).fb = s.fb := rfl
@[simp] theorem State.note_dirty (c : Bool) : (s.note c).dirty = s.dirty := rfl
@[simp] theorem State.note_mem (c : Bool) : (s.note c).mem = s.mem := rfl
@[simp] theorem State.note_run (c : Bool) : (s.note c).run = s.run := rfl
@[simp] theorem State.note_reports (c : Bool) : (s.note c).reports = s.reports := rfl
@[simp] theorem State.note_env (c : Bool) : (s.note c).env = { s.env with untouched := c && s.env.untouched } := rfl
@[simp] theorem State.note_reg (c : Bool) (q : Reg) : (s.note c).reg q = s.reg q := rfl

@[simp] theorem State.touch_v : s.touch.v = s.v := rfl
@[simp] theorem State.touch_i : s.touch.i = s.i := rfl
@[simp] theorem State.touch_pc : s.touch.pc = s.pc := rfl
@[simp] theorem State.touch_stack : s.touch.stack = s.stack := rfl
@[simp] theorem State.touch_sp : s.touch.sp = s.sp := rfl
@[simp] theorem State.touch_dt : s.touch.dt = s.dt := rfl
@[simp] theorem State.touch_st : s.touch.st = s.st := rfl
@[simp] theorem State.touch_keys : s.touch.keys = s.keys := rfl
@[simp] theorem State.touch_fb : s.touch.fb = s.fb := rfl
@[simp] theorem State.touch_dirty : s.touch.dirty = s.dirty := rfl
@[simp] theorem State.touch_mem : s.touch.mem = s.mem := rfl
@[simp] theorem State.touch_run : s.touch.run = s.run := rfl
@[simp] theorem State.touch_reports : s.touch.reports = s.reports := rfl
@[simp] theorem State.touch_env : s.touch.env = { s.env with untouched := false } := rfl
@[simp] theorem State.touch_reg (q : Reg) : s.touch.reg q = s.reg q := rfl
@[simp] theorem State.touch_fetchWord : s.touch.fetchWord = s.fetchWord := rfl

/-- What Load asks, as a proposition (60_exceptions.md R245). -/
theorem State.atReset_iff : s.atReset = true ↔ s.env.untouched = true ∧ s.setEnv Env.reset = State.reset := by
  simp [State.atReset]

/-- A key event of each kind (60_exceptions.md R241; 44_input.md R184): the edge that ends a wait, and any other. -/
theorem State.keyEvent_edge (k x : Reg) (h : s.run = .awaitingKey x) (hk : s.keys[k] = false) :
    s.keyEvent k true = s.touch.resume x k := by
  simp [State.keyEvent, h, hk, State.touch]

theorem State.keyEvent_other (k : Reg) (p : Bool) (h : ∀ x, s.run = .awaitingKey x → p = true → s.keys[k] = true) :
    s.keyEvent k p = (s.note (s.keys[k] == p)).setKey k p := by
  unfold State.keyEvent
  cases hr : s.run with
  | awaitingKey x => cases p <;> simp_all
  | running => rfl
  | halted _ _ => rfl

/-! tick -/

@[simp] theorem State.tick_v : (s.tick).v = s.v := rfl
@[simp] theorem State.tick_i : (s.tick).i = s.i := rfl
@[simp] theorem State.tick_pc : (s.tick).pc = s.pc := rfl
@[simp] theorem State.tick_stack : (s.tick).stack = s.stack := rfl
@[simp] theorem State.tick_sp : (s.tick).sp = s.sp := rfl
@[simp] theorem State.tick_dt : (s.tick).dt = countDown s.dt := rfl
@[simp] theorem State.tick_st : (s.tick).st = countDown s.st := rfl
@[simp] theorem State.tick_keys : (s.tick).keys = s.keys := rfl
@[simp] theorem State.tick_fb : (s.tick).fb = s.fb := rfl
@[simp] theorem State.tick_dirty : (s.tick).dirty = s.dirty := rfl
@[simp] theorem State.tick_mem : (s.tick).mem = s.mem := rfl
@[simp] theorem State.tick_run : (s.tick).run = s.run := rfl
@[simp] theorem State.tick_reports : (s.tick).reports = s.reports := rfl
@[simp] theorem State.tick_env : (s.tick).env = s.env := rfl

@[simp] theorem State.setI_reg (a : Word) (q : Reg) : (s.setI a).reg q = s.reg q := rfl
@[simp] theorem State.setPc_reg (a : Word) (q : Reg) : (s.setPc a).reg q = s.reg q := rfl
@[simp] theorem State.setDt_reg (b : Byte) (q : Reg) : (s.setDt b).reg q = s.reg q := rfl
@[simp] theorem State.setSt_reg (b : Byte) (q : Reg) : (s.setSt b).reg q = s.reg q := rfl
@[simp] theorem State.setKey_reg (k : Reg) (p : Bool) (q : Reg) : (s.setKey k p).reg q = s.reg q := rfl
@[simp] theorem State.setFb_reg (f : Framebuffer) (q : Reg) : (s.setFb f).reg q = s.reg q := rfl
@[simp] theorem State.setDirty_reg (d : Bool) (q : Reg) : (s.setDirty d).reg q = s.reg q := rfl
@[simp] theorem State.setMem_reg (m : Memory) (q : Reg) : (s.setMem m).reg q = s.reg q := rfl
@[simp] theorem State.setRun_reg (r : RunState) (q : Reg) : (s.setRun r).reg q = s.reg q := rfl
@[simp] theorem State.setStack_reg (k : Vector Word 16) (p : Fin 17) (q : Reg) : (s.setStack k p).reg q = s.reg q := rfl
@[simp] theorem State.addReport_reg (r : Report) (q : Reg) : (s.addReport r).reg q = s.reg q := rfl
@[simp] theorem State.setEnv_reg (e : Env) (q : Reg) : (s.setEnv e).reg q = s.reg q := rfl
@[simp] theorem State.advance_reg (q : Reg) : (s.advance).reg q = s.reg q := rfl
@[simp] theorem State.skipIf_reg (c : Bool) (q : Reg) : (s.skipIf c).reg q = s.reg q := rfl
@[simp] theorem State.raise_reg (k : FaultKind) (q : Reg) : (s.raise k).reg q = s.reg q := rfl
@[simp] theorem State.reportUnknown_reg (w : Word) (q : Reg) : (s.reportUnknown w).reg q = s.reg q := rfl
@[simp] theorem State.countDraw_reg (q : Reg) : (s.countDraw).reg q = s.reg q := rfl
@[simp] theorem State.writeI_reg (k : Nat) (b : Byte) (q : Reg) : (s.writeI k b).reg q = s.reg q := rfl
@[simp] theorem State.tick_reg (q : Reg) : (s.tick).reg q = s.reg q := rfl

end Sys2Proof.Machine
end

