-- ==== Sys2Proof/Laws/Ops.lean ====
section
/-! SUPPORT. What each shared operation of Machine/Ops.lean, Operands.lean and Flags.lean can do, said once. -/

namespace Sys2Proof.Machine

/-! ### The stack -/

theorem State.push?_of_lt (s : State) (a : Word) (h : s.sp.val < 16) :
    s.push? a = some (s.setStack (s.stack.set s.sp.val a h) ⟨s.sp.val + 1, by omega⟩) := by
  simp [State.push?, h]

theorem State.push?_full (s : State) (a : Word) (h : s.sp.val = 16) : s.push? a = none := by
  simp [State.push?, h]

theorem State.pop?_of_pos (s : State) (h : 0 < s.sp.val) :
    s.pop? = some (s.stack[s.sp.val - 1]'(by omega), s.setStack s.stack ⟨s.sp.val - 1, by omega⟩) := by
  simp [State.pop?, h]

theorem State.pop?_empty (s : State) (h : s.sp.val = 0) : s.pop? = none := by
  simp [State.pop?, h]

/-! ### Operands -/

theorem zext16_toNat {n : Nat} (h : n ≤ 16) (b : BitVec n) : (zext16 b).toNat = b.toNat := by
  have h1 := b.isLt
  have h2 : 2 ^ n ≤ 2 ^ 16 := Nat.pow_le_pow_right (by decide) h
  simp only [zext16, BitVec.toNat_setWidth]
  exact Nat.mod_eq_of_lt (by omega)

theorem lowNibble_val (b : Byte) : (lowNibble b).val = b.toNat % 16 := rfl

theorem glyphAddr_toNat (g : Reg) : (glyphAddr g).toNat = 5 * g.val := by
  have := g.isLt
  simp only [glyphAddr, fontBase, BitVec.toNat_ofNat]; omega

theorem columnOf_val (b : Byte) (c : Nat) : (columnOf b c).val = (b.toNat % 64 + c) % 64 := rfl

theorem rowOf_val (b : Byte) (r : Nat) : (rowOf b r).val = (b.toNat % 32 + r) % 32 := rfl

/-! ### Flags -/

theorem boolByte_toNat (c : Bool) : (boolByte c).toNat = if c then 1 else 0 := by cases c <;> rfl

theorem boolByte_eq_one (c : Bool) : boolByte c = 1 ↔ c = true := by cases c <;> decide

theorem boolByte_eq_zero (c : Bool) : boolByte c = 0 ↔ c = false := by cases c <;> decide

theorem boolByte_zero_or_one (c : Bool) : boolByte c = 0 ∨ boolByte c = 1 := by cases c <;> decide

theorem carryFlag_toNat (a b : Byte) : (carryFlag a b).toNat = if a.toNat + b.toNat > 255 then 1 else 0 := by
  simp [carryFlag, boolByte_toNat]

theorem noBorrowFlag_toNat (a b : Byte) : (noBorrowFlag a b).toNat = if a.toNat ≥ b.toNat then 1 else 0 := by
  simp [noBorrowFlag, boolByte_toNat]

theorem shrFlag_toNat (b : Byte) : (shrFlag b).toNat = b.toNat % 2 := by
  simp [shrFlag, Nat.and_one_is_mod]

theorem shlFlag_toNat (b : Byte) : (shlFlag b).toNat = b.toNat / 128 := by
  have := b.isLt
  simp [shlFlag, Nat.and_one_is_mod, Nat.shiftRight_eq_div_pow]; omega

/-! ### Runs of stores through I -/

/-- A run of stores changes memory alone. -/
theorem State.storeRun_eq_setMem (s : State) (k : Nat) (bs : List Byte) :
    s.storeRun k bs = s.setMem (s.storeRun k bs).mem := by
  induction bs generalizing s k with
  | nil => rfl
  | cons b rest ih => simp only [State.storeRun]; rw [ih]; rfl

theorem State.storeRun_wf (s : State) (h : s.mem.wf) (k : Nat) (bs : List Byte) : (s.storeRun k bs).mem.wf := by
  induction bs generalizing s k with
  | nil => exact h
  | cons b rest ih => exact ih _ (Memory.wf_write _ h _ (dataAddr_lt _ _) _) _

/-- Two different offsets below 4096 reach two different addresses. -/
theorem dataAddr_inj (i : Word) {j k : Nat} (hj : j < 4096) (hk : k < 4096) (h : dataAddr i j = dataAddr i k) : j = k := by
  simp only [dataAddr, Config.memSize] at h; omega

theorem State.read_storeRun_other (s : State) (h : s.mem.wf) (k : Nat) (bs : List Byte) (a : Nat)
    (ha : ∀ j < bs.length, a ≠ dataAddr s.i (k + j)) : (s.storeRun k bs).mem.read a = s.mem.read a := by
  induction bs generalizing s k with
  | nil => rfl
  | cons b rest ih =>
    simp only [State.storeRun]
    rw [ih _ (Memory.wf_write _ h _ (dataAddr_lt _ _) _) (k + 1) fun j hj => ?_]
    · have := ha 0 (by simp)
      simpa [Memory.read_write _ h] using fun e => absurd e this
    · have := ha (j + 1) (by simpa using hj)
      simpa [Nat.add_assoc, Nat.add_comm 1 j] using this

theorem State.read_storeRun (s : State) (h : s.mem.wf) (k : Nat) (bs : List Byte) (hk : k + bs.length ≤ 4096) (j : Nat)
    (hj : j < bs.length) : (s.storeRun k bs).mem.read (dataAddr s.i (k + j)) = bs[j] := by
  induction bs generalizing s k j with
  | nil => simp at hj
  | cons b rest ih =>
    have hw := Memory.wf_write _ h (dataAddr s.i k) (dataAddr_lt _ _) b
    simp only [List.length_cons] at hk hj
    simp only [State.storeRun]
    cases j with
    | zero =>
      rw [State.read_storeRun_other _ hw (k + 1) rest _ fun j hj e => ?_]
      · simp [Memory.read_write _ h]
      · have := dataAddr_inj s.i (by omega) (by omega) e; omega
    | succ j =>
      have := ih (s.writeI k b) hw (k + 1) (by omega) j (by omega)
      simpa [Nat.add_assoc, Nat.add_comm 1 j] using this

theorem State.regsUpTo_length (s : State) (x : Reg) : (s.regsUpTo x).length = x.val + 1 := by
  have := x.isLt
  simp only [State.regsUpTo, List.length_take, Vector.length_toList]; omega

theorem State.getElem_regsUpTo (s : State) (x k : Reg) (h : k ≤ x) :
    (s.regsUpTo x)[k.val]'(by rw [State.regsUpTo_length]; exact Nat.lt_succ_of_le h) = s.reg k := by
  simp [State.regsUpTo, State.reg]

end Sys2Proof.Machine
end

