-- ==== Sys2Proof/Laws/Display.lean ====
section
/-! SUPPORT. The blitter: one toggled pixel, and what drawing a list of distinct pixels does to the screen and the flag. -/

namespace Sys2Proof.Machine

theorem blankScreen_pixel (px : Fin 64) (py : Fin 32) : blankScreen.pixel px py = false := by
  simp [blankScreen, Framebuffer.pixel]

theorem Framebuffer.pixel_toggle (fb : Framebuffer) (px qx : Fin 64) (py qy : Fin 32) :
    (fb.toggle px py).pixel qx qy = (fb.pixel qx qy ^^ decide ((qx, qy) = (px, py))) := by
  by_cases hy : qy = py
  · subst hy
    by_cases hx : qx = px
    · subst hx; simp [toggle, pixel]
    · have : px.val ≠ qx.val := fun e => hx (Fin.ext e.symm)
      simp [toggle, pixel, hx, this]
  · have : py.val ≠ qy.val := fun e => hy (Fin.ext e.symm)
    simp [toggle, pixel, hy, this]

/-- Drawing distinct pixels toggles exactly them, and collides exactly when one of them was lit. -/
theorem foldl_plotPixel (ps : List (Fin 64 × Fin 32)) (h : ps.Nodup) (acc : Framebuffer × Bool) :
    (∀ qx qy, (ps.foldl plotPixel acc).1.pixel qx qy = (acc.1.pixel qx qy ^^ decide ((qx, qy) ∈ ps))) ∧
    (ps.foldl plotPixel acc).2 = (acc.2 || ps.any fun p => acc.1.pixel p.1 p.2) := by
  induction ps generalizing acc with
  | nil => simp
  | cons p rest ih =>
    obtain ⟨hp, hrest⟩ := List.nodup_cons.mp h
    obtain ⟨ih1, ih2⟩ := ih hrest (plotPixel acc p)
    simp only [List.foldl_cons]
    refine ⟨fun qx qy => ?_, ?_⟩
    · rw [ih1]
      simp only [plotPixel, Framebuffer.pixel_toggle, List.mem_cons]
      by_cases h1 : (qx, qy) = p
      · subst h1; simp [hp]
      · simp [h1]
    · rw [ih2]
      simp only [plotPixel, List.any_cons, Bool.or_assoc]
      congr 2
      rw [Bool.eq_iff_iff]
      simp only [List.any_eq_true]
      refine exists_congr fun q => and_congr_right fun hq => ?_
      have : q ≠ p := fun e => hp (e ▸ hq)
      simp [Framebuffer.pixel_toggle, this]

theorem plot_pixel (fb : Framebuffer) (ps : List (Fin 64 × Fin 32)) (h : ps.Nodup) (qx : Fin 64) (qy : Fin 32) :
    (plot fb ps).1.pixel qx qy = (fb.pixel qx qy ^^ decide ((qx, qy) ∈ ps)) := (foldl_plotPixel ps h (fb, false)).1 qx qy

theorem plot_collision (fb : Framebuffer) (ps : List (Fin 64 × Fin 32)) (h : ps.Nodup) :
    (plot fb ps).2 = ps.any fun p => fb.pixel p.1 p.2 := by
  simpa [plot] using (foldl_plotPixel ps h (fb, false)).2

theorem mem_litColumns (b : Byte) (c : Nat) : c ∈ litColumns b ↔ c < 8 ∧ b.getLsbD (7 - c) = true := by
  simp [litColumns]

theorem mem_spritePixels (s : State) (x y : Reg) (n : Nibble) (p : Fin 64 × Fin 32) :
    p ∈ s.spritePixels x y n ↔ ∃ r c : Nat, r < n.toNat ∧ c < 8 ∧ (s.readI r).getLsbD (7 - c) = true ∧
      p = (columnOf (s.reg x) c, rowOf (s.reg y) r) := by
  simp only [State.spritePixels, List.mem_flatMap, List.mem_range, List.mem_map, mem_litColumns]
  constructor
  · rintro ⟨r, hr, c, ⟨hc, hb⟩, e⟩; exact ⟨r, c, hr, hc, hb, e.symm⟩
  · rintro ⟨r, c, hr, hc, hb, e⟩; exact ⟨r, hr, c, ⟨hc, hb⟩, e.symm⟩

/-- Within one draw no pixel is toggled twice (43_display.md R162, corner cases): at most 8 columns and 15 rows. -/
theorem nodup_spritePixels (s : State) (x y : Reg) (n : Nibble) : (s.spritePixels x y n).Nodup := by
  have hn := n.isLt
  unfold State.spritePixels
  rw [List.nodup_flatMap]
  constructor
  · intro r _
    refine List.Nodup.map_on ?_ (List.nodup_range.filter _)
    intro a ha b hb e
    have ha' := ((mem_litColumns _ _).mp ha).1
    have hb' := ((mem_litColumns _ _).mp hb).1
    have e1 := congrArg (fun p => p.1.val) e
    simp only [columnOf_val] at e1; omega
  · refine (List.nodup_range (n := n.toNat)).imp_of_mem ?_
    intro a b ha hb hab
    simp only [List.mem_range] at ha hb
    simp only [Function.onFun, List.Disjoint, List.mem_map]
    rintro p ⟨c, _, rfl⟩ ⟨d, _, e⟩
    have e2 := congrArg (fun p => p.2.val) e
    simp only [rowOf_val] at e2; omega

end Sys2Proof.Machine
end

