-- ==== Sys2Proof/Laws/PerInstr.lean ====
section
/-! SUPPORT. The family RowOfWord, one lemma per instruction: the word of a well-formed instruction selects, in the opcode
table, the row of that instruction's mnemonic and no earlier one. -/

namespace Sys2Proof

/-- The mnemonic of the row an instruction stands for (spec/opcode_table.json). -/
def Laws.mnemonicOf : Instr → String
  | .cls => "CLS"
  | .ret => "RET"
  | .jp _ => "JP"
  | .call _ => "CALL"
  | .seImm _ _ => "SE_IMM"
  | .sneImm _ _ => "SNE_IMM"
  | .seReg _ _ => "SE_REG"
  | .ldImm _ _ => "LD_IMM"
  | .addImm _ _ => "ADD_IMM"
  | .ldReg _ _ => "LD_REG"
  | .orReg _ _ => "OR"
  | .andReg _ _ => "AND"
  | .xorReg _ _ => "XOR"
  | .addReg _ _ => "ADD_REG"
  | .sub _ _ => "SUB"
  | .shr _ _ => "SHR"
  | .subn _ _ => "SUBN"
  | .shl _ _ => "SHL"
  | .sneReg _ _ => "SNE_REG"
  | .ldI _ => "LD_I"
  | .jpV0 _ => "JP_V0"
  | .rnd _ _ => "RND"
  | .drw _ _ _ => "DRW"
  | .skp _ => "SKP"
  | .sknp _ => "SKNP"
  | .ldVxDt _ => "LD_VX_DT"
  | .ldVxK _ => "LD_VX_K"
  | .ldDtVx _ => "LD_DT_VX"
  | .ldStVx _ => "LD_ST_VX"
  | .addIVx _ => "ADD_I_VX"
  | .ldFVx _ => "LD_F_VX"
  | .ldBVx _ => "LD_B_VX"
  | .ldMemVx _ => "LD_MEM_VX"
  | .ldVxMem _ => "LD_VX_MEM"
  | .unknown0 _ => "UNKNOWN_0"
  | .unknown5 _ => "UNKNOWN_5"
  | .unknown8 _ => "UNKNOWN_8"
  | .unknown9 _ => "UNKNOWN_9"
  | .unknownE _ => "UNKNOWN_E"
  | .unknownF _ => "UNKNOWN_F"

/-- The row the opcode table selects for a word. -/
def Laws.selectedRow (w : Word) : Option String := (opcodeTable.find? (rowMatches w)).map (·.mnemonic)

/-- The word of a well-formed instruction selects its own row. -/
def Laws.RowOfWord.Statement (i : Instr) : Prop :=
  i.wellFormed = true → Laws.selectedRow (encodeWord i) = some (Laws.mnemonicOf i)

/-- A well-formed Unknown's family nibble. -/
theorem Laws.opField_of_inUnknownSet (f : Nat) (w : Word) (h : inUnknownSet f w.toNat = true) :
    opField w = BitVec.ofNat 4 f := by
  have hw := w.isLt
  simp only [inUnknownSet, Bool.and_eq_true, beq_iff_eq] at h
  apply BitVec.eq_of_toNat_eq
  rw [opField_toNat, h.1, BitVec.toNat_ofNat]; omega

theorem Laws.RowOfWord.cls : Laws.RowOfWord.Statement (.cls) := by
  intro _; decide

theorem Laws.RowOfWord.ret : Laws.RowOfWord.Statement (.ret) := by
  intro _; decide

theorem Laws.RowOfWord.jp (nnn : Addr12) : Laws.RowOfWord.Statement (.jp nnn) := by
  simp [Statement, selectedRow, mnemonicOf, opcodeTable, instructionRows, rowsFixed, rowsNnn, rowsXnn, rowsXyn, rowsX, unknownRows,
    rowMatches, subMatches, encodeWord]

theorem Laws.RowOfWord.call (nnn : Addr12) : Laws.RowOfWord.Statement (.call nnn) := by
  simp [Statement, selectedRow, mnemonicOf, opcodeTable, instructionRows, rowsFixed, rowsNnn, rowsXnn, rowsXyn, rowsX, unknownRows,
    rowMatches, subMatches, encodeWord]

theorem Laws.RowOfWord.seImm (x : Reg) (nn : Byte) : Laws.RowOfWord.Statement (.seImm x nn) := by
  simp [Statement, selectedRow, mnemonicOf, opcodeTable, instructionRows, rowsFixed, rowsNnn, rowsXnn, rowsXyn, rowsX, unknownRows,
    rowMatches, subMatches, encodeWord]

theorem Laws.RowOfWord.sneImm (x : Reg) (nn : Byte) : Laws.RowOfWord.Statement (.sneImm x nn) := by
  simp [Statement, selectedRow, mnemonicOf, opcodeTable, instructionRows, rowsFixed, rowsNnn, rowsXnn, rowsXyn, rowsX, unknownRows,
    rowMatches, subMatches, encodeWord]

theorem Laws.RowOfWord.seReg (x : Reg) (y : Reg) : Laws.RowOfWord.Statement (.seReg x y) := by
  simp [Statement, selectedRow, mnemonicOf, opcodeTable, instructionRows, rowsFixed, rowsNnn, rowsXnn, rowsXyn, rowsX, unknownRows,
    rowMatches, subMatches, encodeWord]

theorem Laws.RowOfWord.ldImm (x : Reg) (nn : Byte) : Laws.RowOfWord.Statement (.ldImm x nn) := by
  simp [Statement, selectedRow, mnemonicOf, opcodeTable, instructionRows, rowsFixed, rowsNnn, rowsXnn, rowsXyn, rowsX, unknownRows,
    rowMatches, subMatches, encodeWord]

theorem Laws.RowOfWord.addImm (x : Reg) (nn : Byte) : Laws.RowOfWord.Statement (.addImm x nn) := by
  simp [Statement, selectedRow, mnemonicOf, opcodeTable, instructionRows, rowsFixed, rowsNnn, rowsXnn, rowsXyn, rowsX, unknownRows,
    rowMatches, subMatches, encodeWord]

theorem Laws.RowOfWord.ldReg (x : Reg) (y : Reg) : Laws.RowOfWord.Statement (.ldReg x y) := by
  simp [Statement, selectedRow, mnemonicOf, opcodeTable, instructionRows, rowsFixed, rowsNnn, rowsXnn, rowsXyn, rowsX, unknownRows,
    rowMatches, subMatches, encodeWord]

theorem Laws.RowOfWord.orReg (x : Reg) (y : Reg) : Laws.RowOfWord.Statement (.orReg x y) := by
  simp [Statement, selectedRow, mnemonicOf, opcodeTable, instructionRows, rowsFixed, rowsNnn, rowsXnn, rowsXyn, rowsX, unknownRows,
    rowMatches, subMatches, encodeWord]

theorem Laws.RowOfWord.andReg (x : Reg) (y : Reg) : Laws.RowOfWord.Statement (.andReg x y) := by
  simp [Statement, selectedRow, mnemonicOf, opcodeTable, instructionRows, rowsFixed, rowsNnn, rowsXnn, rowsXyn, rowsX, unknownRows,
    rowMatches, subMatches, encodeWord]

theorem Laws.RowOfWord.xorReg (x : Reg) (y : Reg) : Laws.RowOfWord.Statement (.xorReg x y) := by
  simp [Statement, selectedRow, mnemonicOf, opcodeTable, instructionRows, rowsFixed, rowsNnn, rowsXnn, rowsXyn, rowsX, unknownRows,
    rowMatches, subMatches, encodeWord]

theorem Laws.RowOfWord.addReg (x : Reg) (y : Reg) : Laws.RowOfWord.Statement (.addReg x y) := by
  simp [Statement, selectedRow, mnemonicOf, opcodeTable, instructionRows, rowsFixed, rowsNnn, rowsXnn, rowsXyn, rowsX, unknownRows,
    rowMatches, subMatches, encodeWord]

theorem Laws.RowOfWord.sub (x : Reg) (y : Reg) : Laws.RowOfWord.Statement (.sub x y) := by
  simp [Statement, selectedRow, mnemonicOf, opcodeTable, instructionRows, rowsFixed, rowsNnn, rowsXnn, rowsXyn, rowsX, unknownRows,
    rowMatches, subMatches, encodeWord]

theorem Laws.RowOfWord.shr (x : Reg) (y : Reg) : Laws.RowOfWord.Statement (.shr x y) := by
  simp [Statement, selectedRow, mnemonicOf, opcodeTable, instructionRows, rowsFixed, rowsNnn, rowsXnn, rowsXyn, rowsX, unknownRows,
    rowMatches, subMatches, encodeWord]

theorem Laws.RowOfWord.subn (x : Reg) (y : Reg) : Laws.RowOfWord.Statement (.subn x y) := by
  simp [Statement, selectedRow, mnemonicOf, opcodeTable, instructionRows, rowsFixed, rowsNnn, rowsXnn, rowsXyn, rowsX, unknownRows,
    rowMatches, subMatches, encodeWord]

theorem Laws.RowOfWord.shl (x : Reg) (y : Reg) : Laws.RowOfWord.Statement (.shl x y) := by
  simp [Statement, selectedRow, mnemonicOf, opcodeTable, instructionRows, rowsFixed, rowsNnn, rowsXnn, rowsXyn, rowsX, unknownRows,
    rowMatches, subMatches, encodeWord]

theorem Laws.RowOfWord.sneReg (x : Reg) (y : Reg) : Laws.RowOfWord.Statement (.sneReg x y) := by
  simp [Statement, selectedRow, mnemonicOf, opcodeTable, instructionRows, rowsFixed, rowsNnn, rowsXnn, rowsXyn, rowsX, unknownRows,
    rowMatches, subMatches, encodeWord]

theorem Laws.RowOfWord.ldI (nnn : Addr12) : Laws.RowOfWord.Statement (.ldI nnn) := by
  simp [Statement, selectedRow, mnemonicOf, opcodeTable, instructionRows, rowsFixed, rowsNnn, rowsXnn, rowsXyn, rowsX, unknownRows,
    rowMatches, subMatches, encodeWord]

theorem Laws.RowOfWord.jpV0 (nnn : Addr12) : Laws.RowOfWord.Statement (.jpV0 nnn) := by
  simp [Statement, selectedRow, mnemonicOf, opcodeTable, instructionRows, rowsFixed, rowsNnn, rowsXnn, rowsXyn, rowsX, unknownRows,
    rowMatches, subMatches, encodeWord]

theorem Laws.RowOfWord.rnd (x : Reg) (nn : Byte) : Laws.RowOfWord.Statement (.rnd x nn) := by
  simp [Statement, selectedRow, mnemonicOf, opcodeTable, instructionRows, rowsFixed, rowsNnn, rowsXnn, rowsXyn, rowsX, unknownRows,
    rowMatches, subMatches, encodeWord]

theorem Laws.RowOfWord.drw (x : Reg) (y : Reg) (n : Nibble) : Laws.RowOfWord.Statement (.drw x y n) := by
  simp [Statement, selectedRow, mnemonicOf, opcodeTable, instructionRows, rowsFixed, rowsNnn, rowsXnn, rowsXyn, rowsX, unknownRows,
    rowMatches, subMatches, encodeWord]

theorem Laws.RowOfWord.skp (x : Reg) : Laws.RowOfWord.Statement (.skp x) := by
  simp [Statement, selectedRow, mnemonicOf, opcodeTable, instructionRows, rowsFixed, rowsNnn, rowsXnn, rowsXyn, rowsX, unknownRows,
    rowMatches, subMatches, encodeWord]

theorem Laws.RowOfWord.sknp (x : Reg) : Laws.RowOfWord.Statement (.sknp x) := by
  simp [Statement, selectedRow, mnemonicOf, opcodeTable, instructionRows, rowsFixed, rowsNnn, rowsXnn, rowsXyn, rowsX, unknownRows,
    rowMatches, subMatches, encodeWord]

theorem Laws.RowOfWord.ldVxDt (x : Reg) : Laws.RowOfWord.Statement (.ldVxDt x) := by
  simp [Statement, selectedRow, mnemonicOf, opcodeTable, instructionRows, rowsFixed, rowsNnn, rowsXnn, rowsXyn, rowsX, unknownRows,
    rowMatches, subMatches, encodeWord]

theorem Laws.RowOfWord.ldVxK (x : Reg) : Laws.RowOfWord.Statement (.ldVxK x) := by
  simp [Statement, selectedRow, mnemonicOf, opcodeTable, instructionRows, rowsFixed, rowsNnn, rowsXnn, rowsXyn, rowsX, unknownRows,
    rowMatches, subMatches, encodeWord]

theorem Laws.RowOfWord.ldDtVx (x : Reg) : Laws.RowOfWord.Statement (.ldDtVx x) := by
  simp [Statement, selectedRow, mnemonicOf, opcodeTable, instructionRows, rowsFixed, rowsNnn, rowsXnn, rowsXyn, rowsX, unknownRows,
    rowMatches, subMatches, encodeWord]

theorem Laws.RowOfWord.ldStVx (x : Reg) : Laws.RowOfWord.Statement (.ldStVx x) := by
  simp [Statement, selectedRow, mnemonicOf, opcodeTable, instructionRows, rowsFixed, rowsNnn, rowsXnn, rowsXyn, rowsX, unknownRows,
    rowMatches, subMatches, encodeWord]

theorem Laws.RowOfWord.addIVx (x : Reg) : Laws.RowOfWord.Statement (.addIVx x) := by
  simp [Statement, selectedRow, mnemonicOf, opcodeTable, instructionRows, rowsFixed, rowsNnn, rowsXnn, rowsXyn, rowsX, unknownRows,
    rowMatches, subMatches, encodeWord]

theorem Laws.RowOfWord.ldFVx (x : Reg) : Laws.RowOfWord.Statement (.ldFVx x) := by
  simp [Statement, selectedRow, mnemonicOf, opcodeTable, instructionRows, rowsFixed, rowsNnn, rowsXnn, rowsXyn, rowsX, unknownRows,
    rowMatches, subMatches, encodeWord]

theorem Laws.RowOfWord.ldBVx (x : Reg) : Laws.RowOfWord.Statement (.ldBVx x) := by
  simp [Statement, selectedRow, mnemonicOf, opcodeTable, instructionRows, rowsFixed, rowsNnn, rowsXnn, rowsXyn, rowsX, unknownRows,
    rowMatches, subMatches, encodeWord]

theorem Laws.RowOfWord.ldMemVx (x : Reg) : Laws.RowOfWord.Statement (.ldMemVx x) := by
  simp [Statement, selectedRow, mnemonicOf, opcodeTable, instructionRows, rowsFixed, rowsNnn, rowsXnn, rowsXyn, rowsX, unknownRows,
    rowMatches, subMatches, encodeWord]

theorem Laws.RowOfWord.ldVxMem (x : Reg) : Laws.RowOfWord.Statement (.ldVxMem x) := by
  simp [Statement, selectedRow, mnemonicOf, opcodeTable, instructionRows, rowsFixed, rowsNnn, rowsXnn, rowsXyn, rowsX, unknownRows,
    rowMatches, subMatches, encodeWord]

theorem Laws.RowOfWord.unknown5 (w : Word) : Laws.RowOfWord.Statement (.unknown5 w) := by
  intro h
  have hop := Laws.opField_of_inUnknownSet 0x5 w h
  have hsub : nField w ≠ 0#4 := by
    simp only [Instr.wellFormed, inUnknownSet, ← nField_toNat, Bool.and_eq_true] at h
    replace h := h.2
    revert h; generalize nField w = n; revert n; decide
  simp [selectedRow, mnemonicOf, opcodeTable, instructionRows, rowsFixed, rowsNnn, rowsXnn, rowsXyn, rowsX, unknownRows,
    rowMatches, subMatches, encodeWord, hop, hsub]

theorem Laws.RowOfWord.unknown8 (w : Word) : Laws.RowOfWord.Statement (.unknown8 w) := by
  intro h
  have hop := Laws.opField_of_inUnknownSet 0x8 w h
  have hsub : nField w ≠ 0#4 ∧ nField w ≠ 1#4 ∧ nField w ≠ 2#4 ∧ nField w ≠ 3#4 ∧ nField w ≠ 4#4 ∧ nField w ≠ 5#4 ∧ nField w ≠ 6#4 ∧ nField w ≠ 7#4 ∧ nField w ≠ 14#4 := by
    simp only [Instr.wellFormed, inUnknownSet, ← nField_toNat, Bool.and_eq_true] at h
    replace h := h.2
    revert h; generalize nField w = n; revert n; decide
  simp [selectedRow, mnemonicOf, opcodeTable, instructionRows, rowsFixed, rowsNnn, rowsXnn, rowsXyn, rowsX, unknownRows,
    rowMatches, subMatches, encodeWord, hop, hsub]

theorem Laws.RowOfWord.unknown9 (w : Word) : Laws.RowOfWord.Statement (.unknown9 w) := by
  intro h
  have hop := Laws.opField_of_inUnknownSet 0x9 w h
  have hsub : nField w ≠ 0#4 := by
    simp only [Instr.wellFormed, inUnknownSet, ← nField_toNat, Bool.and_eq_true] at h
    replace h := h.2
    revert h; generalize nField w = n; revert n; decide
  simp [selectedRow, mnemonicOf, opcodeTable, instructionRows, rowsFixed, rowsNnn, rowsXnn, rowsXyn, rowsX, unknownRows,
    rowMatches, subMatches, encodeWord, hop, hsub]

theorem Laws.RowOfWord.unknownE (w : Word) : Laws.RowOfWord.Statement (.unknownE w) := by
  intro h
  have hop := Laws.opField_of_inUnknownSet 0xE w h
  have hsub : nnField w ≠ 0x9E#8 ∧ nnField w ≠ 0xA1#8 := by
    simp only [Instr.wellFormed, inUnknownSet, ← nnField_toNat, Bool.and_eq_true] at h
    replace h := h.2
    revert h; generalize nnField w = n; revert n; decide
  simp [selectedRow, mnemonicOf, opcodeTable, instructionRows, rowsFixed, rowsNnn, rowsXnn, rowsXyn, rowsX, unknownRows,
    rowMatches, subMatches, encodeWord, hop, hsub]

theorem Laws.RowOfWord.unknownF (w : Word) : Laws.RowOfWord.Statement (.unknownF w) := by
  intro h
  have hop := Laws.opField_of_inUnknownSet 0xF w h
  have hsub : nnField w ≠ 0x07#8 ∧ nnField w ≠ 0x0A#8 ∧ nnField w ≠ 0x15#8 ∧ nnField w ≠ 0x18#8 ∧ nnField w ≠ 0x1E#8 ∧ nnField w ≠ 0x29#8 ∧ nnField w ≠ 0x33#8 ∧ nnField w ≠ 0x55#8 ∧ nnField w ≠ 0x65#8 := by
    simp only [Instr.wellFormed, inUnknownSet, ← nnField_toNat, Bool.and_eq_true] at h
    replace h := h.2
    revert h; generalize nnField w = n; revert n; decide
  simp [selectedRow, mnemonicOf, opcodeTable, instructionRows, rowsFixed, rowsNnn, rowsXnn, rowsXyn, rowsX, unknownRows,
    rowMatches, subMatches, encodeWord, hop, hsub]

theorem Laws.RowOfWord.unknown0 (w : Word) : Laws.RowOfWord.Statement (.unknown0 w) := by
  intro h
  have hop := Laws.opField_of_inUnknownSet 0x0 w h
  have hsub : nnnField w ≠ 0x0E0#12 ∧ nnnField w ≠ 0x0EE#12 := by
    have hn := nnnField_toNat w
    simp only [Instr.wellFormed, inUnknownSet, Bool.and_eq_true, beq_iff_eq, bne_iff_ne] at h
    constructor <;> intro e <;> rw [e] at hn <;> simp at hn <;> omega
  simp [selectedRow, mnemonicOf, opcodeTable, instructionRows, rowsFixed, rowsNnn, rowsXnn, rowsXyn, rowsX, unknownRows,
    rowMatches, subMatches, encodeWord, hop, hsub]

end Sys2Proof
end

