-- ==== Sys2Proof/Laws/Turns.lean ====
section
/-! SUPPORT. Which transition a step is, by the schedule and RUN; and that exec always answers a next state. -/

namespace Sys2Proof.Machine

theorem step_scheduled (s : State) (t : Turn) (ts : List Turn) (h : s.env.schedule = t :: ts) :
    step s = perform t (s.setSchedule ts) := by
  simp [step, nextTurn, h]

theorem step_unscheduled (s : State) (h : s.env.schedule = []) : step s = unscheduled s := by
  simp [step, nextTurn, h]

theorem coreTurn_running (s : State) (h : s.run = .running) : coreTurn s = coreStep s.touch := by
  simp [coreTurn, h]

theorem coreTurn_idle (s : State) (h : s.run ≠ .running) : coreTurn s = .next s := by
  unfold coreTurn; split <;> simp_all

theorem unscheduled_running (s : State) (h : s.run = .running) : unscheduled s = coreStep s.touch := by
  simp [unscheduled, h]

/-- A meaning never stops the machine: every instruction of this core has an effect in every state. -/
theorem exec_answers_next (i : Instr) (s : State) : ∃ t, exec i s = .next t := by
  cases i with
  | call nnn => simp only [exec, execCall]; split <;> exact ⟨_, rfl⟩
  | ret => simp only [exec, execRet]; split <;> exact ⟨_, rfl⟩
  | _ => exact ⟨_, rfl⟩

end Sys2Proof.Machine
end

