-- ==== Sys2Proof/Tests/Slice0.lean ====
section
/-! SUPPORT. The model's own tests: ill-formed terms, decoding, one-step vectors of 95_test_vectors.md, and a witness for
every statement that has hypotheses. Expected values come from the spec's vectors and tables, never from the model. -/

open Sys2Proof Sys2Proof.Machine

namespace Sys2Proof.Tests

/-! ### Helpers -/

/-- The next state of an answer. -/
def nextOf (r : Result) : Option State :=
  match r with
  | .next s => some s
  | .fault _ => none
  | .refused _ => none

/-- One step of the machine with a word at PC, and what is looked at in the state after it. -/
def look {α : Type} (s : State) (w : Nat) (f : State → α) : Option α := (nextOf (step (s.withFetchWord 16 w))).map f

/-- The reset state with some registers set. -/
def regs (rs : List (Reg × Byte)) : State := rs.foldl (fun s p => s.setReg p.1 p.2) State.reset

/-- A state with some bytes in memory. -/
def poke (s : State) (a : Nat) (bs : List Byte) : State := s.setMem (s.mem.writeBytes a bs)

/-- How many pixels are lit. -/
def litCount (fb : Framebuffer) : Nat := (fb.toList.map fun row => row.toList.count true).sum

/-! ### Ill-formed terms are refused (30_encoding.md R86) -/

theorem test_illformed_unknown0 : Instr.wellFormed (.unknown0 0x00E0) = false ∧ Instr.wellFormed (.unknown0 0x00EE) = false ∧ Instr.wellFormed (.unknown0 0x1000) = false := by decide
theorem test_illformed_unknown5 : Instr.wellFormed (.unknown5 0x5120) = false ∧ Instr.wellFormed (.unknown5 0x6001) = false := by decide
theorem test_illformed_unknown8 : Instr.wellFormed (.unknown8 0x8127) = false ∧ Instr.wellFormed (.unknown8 0x812E) = false ∧ Instr.wellFormed (.unknown8 0x9128) = false := by decide
theorem test_illformed_unknown9 : Instr.wellFormed (.unknown9 0x9120) = false ∧ Instr.wellFormed (.unknown9 0x5121) = false := by decide
theorem test_illformed_unknownE : Instr.wellFormed (.unknownE 0xE59E) = false ∧ Instr.wellFormed (.unknownE 0xE5A1) = false ∧ Instr.wellFormed (.unknownE 0xF09F) = false := by decide
theorem test_illformed_unknownF : Instr.wellFormed (.unknownF 0xF30A) = false ∧ Instr.wellFormed (.unknownF 0xF165) = false ∧ Instr.wellFormed (.unknownF 0xE000) = false := by decide
theorem test_wellformed_unknowns : Instr.wellFormed (.unknown0 0x0123) = true ∧ Instr.wellFormed (.unknown5 0x5121) = true ∧
    Instr.wellFormed (.unknown8 0x812F) = true ∧ Instr.wellFormed (.unknown9 0x912F) = true ∧
    Instr.wellFormed (.unknownE 0xE09F) = true ∧ Instr.wellFormed (.unknownF 0xF0FF) = true := by decide

/-! ### Decoding: one word for every row, written out from opcode_table.json's `encoding` -/

theorem test_decode_cls : decodeWord 0b0000000011100000 = .cls := by decide
theorem test_decode_ret : decodeWord 0b0000000011101110 = .ret := by decide
theorem test_decode_jp : decodeWord 0b0001010101100111 = .jp 0x567 := by decide
theorem test_decode_call : decodeWord 0b0010010101100111 = .call 0x567 := by decide
theorem test_decode_seImm : decodeWord 0b0011001110010110 = .seImm 0x3 0x96 := by decide
theorem test_decode_sneImm : decodeWord 0b0100001110010110 = .sneImm 0x3 0x96 := by decide
theorem test_decode_seReg : decodeWord 0b0101001110100000 = .seReg 0x3 0xa := by decide
theorem test_decode_ldImm : decodeWord 0b0110001110010110 = .ldImm 0x3 0x96 := by decide
theorem test_decode_addImm : decodeWord 0b0111001110010110 = .addImm 0x3 0x96 := by decide
theorem test_decode_ldReg : decodeWord 0b1000001110100000 = .ldReg 0x3 0xa := by decide
theorem test_decode_orReg : decodeWord 0b1000001110100001 = .orReg 0x3 0xa := by decide
theorem test_decode_andReg : decodeWord 0b1000001110100010 = .andReg 0x3 0xa := by decide
theorem test_decode_xorReg : decodeWord 0b1000001110100011 = .xorReg 0x3 0xa := by decide
theorem test_decode_addReg : decodeWord 0b1000001110100100 = .addReg 0x3 0xa := by decide
theorem test_decode_sub : decodeWord 0b1000001110100101 = .sub 0x3 0xa := by decide
theorem test_decode_shr : decodeWord 0b1000001110100110 = .shr 0x3 0xa := by decide
theorem test_decode_subn : decodeWord 0b1000001110100111 = .subn 0x3 0xa := by decide
theorem test_decode_shl : decodeWord 0b1000001110101110 = .shl 0x3 0xa := by decide
theorem test_decode_sneReg : decodeWord 0b1001001110100000 = .sneReg 0x3 0xa := by decide
theorem test_decode_ldI : decodeWord 0b1010010101100111 = .ldI 0x567 := by decide
theorem test_decode_jpV0 : decodeWord 0b1011010101100111 = .jpV0 0x567 := by decide
theorem test_decode_rnd : decodeWord 0b1100001110010110 = .rnd 0x3 0x96 := by decide
theorem test_decode_drw : decodeWord 0b1101001110100111 = .drw 0x3 0xa 0x7 := by decide
theorem test_decode_skp : decodeWord 0b1110001110011110 = .skp 0x3 := by decide
theorem test_decode_sknp : decodeWord 0b1110001110100001 = .sknp 0x3 := by decide
theorem test_decode_ldVxDt : decodeWord 0b1111001100000111 = .ldVxDt 0x3 := by decide
theorem test_decode_ldVxK : decodeWord 0b1111001100001010 = .ldVxK 0x3 := by decide
theorem test_decode_ldDtVx : decodeWord 0b1111001100010101 = .ldDtVx 0x3 := by decide
theorem test_decode_ldStVx : decodeWord 0b1111001100011000 = .ldStVx 0x3 := by decide
theorem test_decode_addIVx : decodeWord 0b1111001100011110 = .addIVx 0x3 := by decide
theorem test_decode_ldFVx : decodeWord 0b1111001100101001 = .ldFVx 0x3 := by decide
theorem test_decode_ldBVx : decodeWord 0b1111001100110011 = .ldBVx 0x3 := by decide
theorem test_decode_ldMemVx : decodeWord 0b1111001101010101 = .ldMemVx 0x3 := by decide
theorem test_decode_ldVxMem : decodeWord 0b1111001101100101 = .ldVxMem 0x3 := by decide
theorem test_decode_unknown0 : decodeWord 0b0000000100100011 = .unknown0 0x0123 := by decide
theorem test_decode_unknown5 : decodeWord 0b0101000100100001 = .unknown5 0x5121 := by decide
theorem test_decode_unknown8 : decodeWord 0b1000000100101000 = .unknown8 0x8128 := by decide
theorem test_decode_unknown9 : decodeWord 0b1001000100101111 = .unknown9 0x912F := by decide
theorem test_decode_unknownE : decodeWord 0b1110000010011111 = .unknownE 0xE09F := by decide
theorem test_decode_unknownF : decodeWord 0b1111000000110000 = .unknownF 0xF030 := by decide

/-- opcode_table.json's `match` and `mask` columns, row by row, against the model's table. -/
theorem test_table_match_mask : opcodeTable.map (fun r => (r.mnemonic, r.op.toNat * 0x1000 + (subMaskMatch r.sub).2,
    0xF000 + (subMaskMatch r.sub).1)) =
    [("CLS", 0x00E0, 0xFFFF), ("RET", 0x00EE, 0xFFFF), ("JP", 0x1000, 0xF000), ("CALL", 0x2000, 0xF000), ("LD_I", 0xA000, 0xF000), ("JP_V0", 0xB000, 0xF000), ("SE_IMM", 0x3000, 0xF000), ("SNE_IMM", 0x4000, 0xF000)] ++
    [("LD_IMM", 0x6000, 0xF000), ("ADD_IMM", 0x7000, 0xF000), ("RND", 0xC000, 0xF000), ("SE_REG", 0x5000, 0xF00F), ("LD_REG", 0x8000, 0xF00F), ("OR", 0x8001, 0xF00F), ("AND", 0x8002, 0xF00F), ("XOR", 0x8003, 0xF00F)] ++
    [("ADD_REG", 0x8004, 0xF00F), ("SUB", 0x8005, 0xF00F), ("SHR", 0x8006, 0xF00F), ("SUBN", 0x8007, 0xF00F), ("SHL", 0x800E, 0xF00F), ("SNE_REG", 0x9000, 0xF00F), ("DRW", 0xD000, 0xF000), ("SKP", 0xE09E, 0xF0FF)] ++
    [("SKNP", 0xE0A1, 0xF0FF), ("LD_VX_DT", 0xF007, 0xF0FF), ("LD_VX_K", 0xF00A, 0xF0FF), ("LD_DT_VX", 0xF015, 0xF0FF), ("LD_ST_VX", 0xF018, 0xF0FF), ("ADD_I_VX", 0xF01E, 0xF0FF), ("LD_F_VX", 0xF029, 0xF0FF), ("LD_B_VX", 0xF033, 0xF0FF)] ++
    [("LD_MEM_VX", 0xF055, 0xF0FF), ("LD_VX_MEM", 0xF065, 0xF0FF), ("UNKNOWN_0", 0x0000, 0xF000), ("UNKNOWN_5", 0x5000, 0xF000), ("UNKNOWN_8", 0x8000, 0xF000), ("UNKNOWN_9", 0x9000, 0xF000), ("UNKNOWN_E", 0xE000, 0xF000), ("UNKNOWN_F", 0xF000, 0xF000)] := by decide

theorem test_decode_bytes : decode [0x62, 0x44, 0x99] = .ok (.ldImm 2 0x44, [0x99]) ∧ decode [0x62] = .error (.truncated 1) ∧
    decode [] = .error (.truncated 0) := by decide

theorem test_decodeTableWord : decodeTableWord 16 0x8125 = some (.sub 1 2) ∧ decodeTableWord 8 0xFFE0 = some .cls := by decide

/-! ### Fetch and PC (95_test_vectors.md FET) -/

/-- FET-2: the last word of memory is fetched, and PC leaves memory. -/
theorem test_fetch_last_word :
    (nextOf (step (poke (State.reset.setPc 0xFFE) 0xFFE [0x60, 0x07]))).map (fun s => (s.reg 0, s.pc, s.run)) =
      some (0x07, 0x1000, .running) := by decide

/-- FET-4. -/
theorem test_fetch_out_of_range :
    (nextOf (step (State.reset.setPc 0xFFF))).map (fun s => (s.run, s.pc, s.mem)) =
      some (.halted .pcOutOfRange 0xFFF, 0xFFF, []) := by decide

/-- FET-5: an odd PC is fetched like an even one. -/
theorem test_fetch_odd_pc :
    (nextOf (step (poke (State.reset.setPc 0x201) 0x201 [0x61, 0x23]))).map (fun s => (s.reg 1, s.pc)) =
      some (0x23, 0x203) := by decide

/-! ### Control flow (CF) -/

theorem test_jp : look State.reset 0x1234 (·.pc) = some 0x234 := by decide

/-- CF-3. -/
theorem test_call : look (State.reset.setPc 0x204) 0x2300 (fun s => (s.stack[0], s.sp.val, s.pc)) =
    some (0x206, 1, 0x300) := by decide

/-- CF-4. -/
theorem test_call_overflow :
    look ((State.reset.setPc 0x204).setStack (Vector.replicate 16 0x202) 16) 0x2300 (fun s => (s.run, s.pc, s.sp.val, s.stack[15])) =
      some (.halted .stackOverflow 0x204, 0x204, 16, 0x202) := by decide

/-- CF-5. -/
theorem test_ret :
    look ((State.reset.setPc 0x300).setStack (Vector.replicate 16 0x206) 1) 0x00EE (fun s => (s.sp.val, s.pc, s.stack[0])) =
      some (0, 0x206, 0x206) := by decide

/-- CF-6. -/
theorem test_ret_underflow : look State.reset 0x00EE (fun s => (s.run, s.pc)) =
    some (.halted .stackUnderflow 0x200, 0x200) := by decide

/-- CF-8. -/
theorem test_seImm : look (regs [(1, 0x55)]) 0x3155 (·.pc) = some 0x204 ∧ look (regs [(1, 0x99)]) 0x3155 (·.pc) = some 0x202 := by
  decide

/-- CF-9. -/
theorem test_sneImm : look (regs [(1, 0x99)]) 0x4155 (·.pc) = some 0x204 ∧ look (regs [(1, 0x55)]) 0x4155 (·.pc) = some 0x202 := by
  decide

/-- CF-10. -/
theorem test_seReg : look (regs [(1, 7), (2, 7)]) 0x5120 (·.pc) = some 0x204 ∧
    look (regs [(1, 7), (2, 8)]) 0x5120 (·.pc) = some 0x202 := by decide

/-- CF-11. -/
theorem test_sneReg : look (regs [(1, 7), (2, 8)]) 0x9120 (·.pc) = some 0x204 ∧
    look (regs [(1, 7)]) 0x9110 (·.pc) = some 0x202 := by decide

/-! ### Register load, arithmetic and logic (ALU), VF = 77 before -/

/-- E1. -/
theorem test_ldImm : look (regs [(VF, 0x77)]) 0x6244 (fun s => (s.reg 2, s.reg VF, s.pc)) = some (0x44, 0x77, 0x202) := by decide

/-- ALU-3, ALU-4. -/
theorem test_addImm : look (regs [(VF, 0x77), (1, 0xFF)]) 0x7101 (fun s => (s.reg 1, s.reg VF)) = some (0x00, 0x77) ∧
    look (regs [(VF, 0xFF)]) 0x7F01 (·.reg VF) = some 0x00 := by decide

/-- ALU-5. -/
theorem test_ldReg : look (regs [(VF, 0x77), (2, 0xAB)]) 0x8120 (fun s => (s.reg 1, s.reg VF)) = some (0xAB, 0x77) := by decide

/-- ALU-6. -/
theorem test_orReg : look (regs [(VF, 0x77), (1, 0xF0), (2, 0x0F)]) 0x8121 (fun s => (s.reg 1, s.reg VF)) = some (0xFF, 0x77) := by
  decide

/-- ALU-7. -/
theorem test_andReg : look (regs [(VF, 0x77), (1, 0xF0), (2, 0x3C)]) 0x8122 (fun s => (s.reg 1, s.reg VF)) = some (0x30, 0x77) := by
  decide

/-- ALU-7b. -/
theorem test_xorReg : look (regs [(VF, 0x77), (1, 0xFF), (2, 0x0F)]) 0x8123 (fun s => (s.reg 1, s.reg VF)) = some (0xF0, 0x77) := by
  decide

/-- ALU-11, ALU-9. -/
theorem test_addReg : look (regs [(1, 0xFF), (2, 0xFF)]) 0x8124 (fun s => (s.reg 1, s.reg VF)) = some (0xFE, 1) ∧
    look (regs [(VF, 0x77), (1, 0x7F), (2, 1)]) 0x8124 (fun s => (s.reg 1, s.reg VF)) = some (0x80, 0) := by decide

/-- ALU-13: with x = F the carry stays; ALU-14: with y = F the old VF is added. -/
theorem test_addReg_vf : look (regs [(VF, 0xF0), (1, 0x20)]) 0x8F14 (·.reg VF) = some 1 ∧
    look (regs [(VF, 5), (1, 0x10)]) 0x81F4 (fun s => (s.reg 1, s.reg VF)) = some (0x15, 0) := by decide

/-- E3, ALU-16. -/
theorem test_sub : look (regs [(VF, 0x77), (1, 4), (2, 0xFF)]) 0x8125 (fun s => (s.reg 1, s.reg VF)) = some (5, 0) ∧
    look (regs [(1, 5), (2, 5)]) 0x8125 (fun s => (s.reg 1, s.reg VF)) = some (0, 1) := by decide

/-- ALU-20. -/
theorem test_sub_vf : look (regs [(VF, 3), (1, 1)]) 0x8F15 (·.reg VF) = some 1 := by decide

/-- ALU-25, ALU-30, ALU-37: both shift sources. -/
theorem test_shr : look (regs [(1, 3), (2, 0xFF)]) 0x8126 (fun s => (s.reg 1, s.reg VF)) = some (1, 1) ∧
    look ((regs [(1, 0xFF), (2, 4)]).setEnv { Env.reset with shiftSource := .vy }) 0x8126 (fun s => (s.reg 1, s.reg VF)) =
      some (2, 0) := by decide

/-- ALU-29. -/
theorem test_shr_vf : look (regs [(VF, 3)]) 0x8F06 (·.reg VF) = some 1 := by decide

/-- ALU-22, ALU-24. -/
theorem test_subn : look (regs [(1, 0xFF), (2, 4)]) 0x8127 (fun s => (s.reg 1, s.reg VF)) = some (5, 0) ∧
    look (regs [(VF, 5), (1, 3)]) 0x8F17 (·.reg VF) = some 0 := by decide

/-- ALU-31, ALU-36. -/
theorem test_shl : look (regs [(1, 0x81)]) 0x810E (fun s => (s.reg 1, s.reg VF)) = some (2, 1) ∧
    look ((regs [(2, 0x81)]).setEnv { Env.reset with shiftSource := .vy }) 0x812E (fun s => (s.reg 1, s.reg VF)) =
      some (2, 1) := by decide

/-- ALU-35. -/
theorem test_shl_vf : look (regs [(VF, 0x81)]) 0x8F0E (·.reg VF) = some 1 := by decide

/-! ### Addressing and random (ADR, RND, CF) -/

/-- ADR-2. -/
theorem test_ldI : look (State.reset.setI 0xFFFF) 0xA123 (fun s => (s.i, s.pc)) = some (0x0123, 0x202) := by decide

/-- CF-13, CF-14. -/
theorem test_jpV0 : look (regs [(0, 4)]) 0xB200 (·.pc) = some 0x204 ∧ look (regs [(0, 0xFF)]) 0xBFFF (·.pc) = some 0x10FE := by
  decide

/-- RND-1, RND-3: what the instruction does with a draw. -/
theorem test_rnd : (rndWithDraw 0xA7 1 0x0F State.reset).reg 1 = 0x07 ∧ (rndWithDraw 0x5A 1 0xFF State.reset).reg 1 = 0x5A := by
  decide

/-- RND runs, whatever the oracle gives. -/
theorem test_rnd_runs : look State.reset 0xC1F0 (fun s => (s.pc, s.env.draws)) = some (0x202, 1) := by decide

/-! ### Display (CLS, DRW) -/

/-- CLS-1. -/
theorem test_cls : look ((regs [(VF, 0x77)]).setFb (State.reset.fb.toggle 5 5)) 0x00E0 (fun s => (litCount s.fb, s.dirty, s.reg VF)) =
    some (0, true, 0x77) := by decide

/-- DRW-1: glyph 0 at the origin. -/
theorem test_drw_glyph : look (regs [(VF, 0x77)]) 0xD015
    (fun s => (litCount s.fb, s.fb.pixel 3 2, s.fb.pixel 1 1, s.reg VF, s.dirty)) =
      some (14, true, false, 0, true) := by decide

/-- DRW-3: the right edge wraps to the left. -/
theorem test_drw_wraps_columns : look ((poke (regs [(0, 0x3E)]) 0x300 [0xFF]).setI 0x300) 0xD011
    (fun s => (litCount s.fb, s.fb.pixel 62 0, s.fb.pixel 63 0, s.fb.pixel 0 0, s.fb.pixel 5 0)) =
      some (8, true, true, true, true) := by decide

/-- DRW-4: the bottom edge wraps to the top. -/
theorem test_drw_wraps_rows : look ((poke (regs [(1, 0x1F)]) 0x300 [0x80, 0x80]).setI 0x300) 0xD012
    (fun s => (litCount s.fb, s.fb.pixel 0 31, s.fb.pixel 0 0)) = some (2, true, true) := by decide

/-- DRW-9: a collision. -/
theorem test_drw_collision : look (((poke State.reset 0x300 [0xC0]).setI 0x300).setFb (State.reset.fb.toggle 0 0)) 0xD011
    (fun s => (s.fb.pixel 0 0, s.fb.pixel 1 0, s.reg VF)) = some (false, true, 1) := by decide

/-- DRW-11: the sprite's bytes pass 0xFFF; DRW-2: n = 0 clears VF and marks the screen dirty. -/
theorem test_drw_address_wrap_and_empty :
    look ((poke State.reset 0xFFF [0x80]).setI 0xFFF) 0xD012 (fun s => (litCount s.fb, s.fb.pixel 0 0, s.fb.pixel 3 1)) =
      some (5, true, true) ∧
    look (regs [(VF, 1)]) 0xD010 (fun s => (litCount s.fb, s.reg VF, s.dirty)) = some (0, 0, true) := by decide

/-! ### Input (KEY) -/

/-- KEY-1 to KEY-3. -/
theorem test_skp : look ((regs [(0, 0x15)]).setKey 5 true) 0xE09E (·.pc) = some 0x204 ∧
    look (regs [(0, 5)]) 0xE09E (·.pc) = some 0x202 := by decide

/-- KEY-4. -/
theorem test_sknp : look (regs [(0, 5)]) 0xE0A1 (·.pc) = some 0x204 ∧
    look ((regs [(0, 5)]).setKey 5 true) 0xE0A1 (·.pc) = some 0x202 := by decide

/-- KEY-5. -/
theorem test_ldVxK : look State.reset 0xF30A (fun s => (s.run, s.pc)) = some (.awaitingKey 3, 0x200) := by decide

/-- KEY-6, KEY-7: a press of an up key resumes, a press of a held key does not. -/
theorem test_keyEvent :
    (nextOf (perform (.key 0xA true) (State.reset.setRun (.awaitingKey 3)))).map (fun s => (s.reg 3, s.keys[10], s.pc, s.run)) =
      some (0x0A, true, 0x202, .running) ∧
    (nextOf (perform (.key 2 true) ((State.reset.setKey 2 true).setRun (.awaitingKey 3)))).map (fun s => (s.pc, s.run)) =
      some (0x200, .awaitingKey 3) := by decide

/-- KEY-12. -/
theorem test_keyEvent_out_of_range : nextOf (perform (.key 16 true) State.reset) = none := by decide

/-! ### Timers, index, font, BCD, bulk memory (TMR, FX) -/

/-- TMR-1. -/
theorem test_ldVxDt : look (State.reset.setDt 0x3C) 0xF107 (fun s => (s.reg 1, s.dt)) = some (0x3C, 0x3C) := by decide

/-- TMR-2. -/
theorem test_ldDtVx : look (regs [(0, 5)]) 0xF015 (fun s => (s.dt, s.st)) = some (5, 0) := by decide

/-- TMR-3. -/
theorem test_ldStVx : look (regs [(2, 1)]) 0xF218 (fun s => (s.st, s.dt, s.tone)) = some (1, 0, true) := by decide

/-- TMR-5, TMR-6. -/
theorem test_tick : (State.reset.tick.dt, State.reset.tick.st) = (0, 0) ∧
    (((State.reset.setDt 1).setSt 0xFF).tick.dt, ((State.reset.setDt 1).setSt 0xFF).tick.st) = (0, 0xFE) := by decide

/-- FX-2, FX-3. -/
theorem test_addIVx : look ((regs [(VF, 0x77), (1, 1)]).setI 0x0FFF) 0xF11E (fun s => (s.i, s.reg VF)) = some (0x1000, 0x77) ∧
    look ((regs [(1, 2)]).setI 0xFFFF) 0xF11E (·.i) = some 0x0001 := by decide

/-- FX-4, FX-5. -/
theorem test_ldFVx : look (regs [(2, 0x0A)]) 0xF229 (·.i) = some 0x032 ∧ look (regs [(2, 0x1F)]) 0xF229 (·.i) = some 0x04B := by
  decide

/-- FX-7, FX-9. -/
theorem test_ldBVx : look ((regs [(0, 0xFE)]).setI 0x300) 0xF033
      (fun s => (s.mem.read 0x300, s.mem.read 0x301, s.mem.read 0x302, s.i)) = some (2, 5, 4, 0x300) ∧
    look ((regs [(0, 0x7B)]).setI 0xFFF) 0xF033 (fun s => (s.mem.read 0xFFF, s.mem.read 0x000, s.mem.read 0x001)) =
      some (1, 2, 3) := by decide

/-- FX-10, FX-11. -/
theorem test_ldMemVx : look ((regs [(0, 1), (1, 2), (2, 3)]).setI 0x300) 0xF255
      (fun s => (s.mem.read 0x300, s.mem.read 0x301, s.mem.read 0x302, s.mem.read 0x303, s.i)) = some (1, 2, 3, 0, 0x300) ∧
    look (poke ((regs [(0, 0xAA), (1, 0xBB)]).setI 0x300) 0x301 [0x99]) 0xF055
      (fun s => (s.mem.read 0x300, s.mem.read 0x301)) = some (0xAA, 0x99) := by decide

/-- FX-12: the run wraps past 0xFFF. -/
theorem test_ldMemVx_wrap : look ((regs [(7, 7), (8, 8), (0xF, 0xF)]).setI 0x0FF8) 0xFF55
    (fun s => (s.mem.read 0xFFF, s.mem.read 0x000, s.mem.read 0x007, s.i)) = some (7, 8, 0x0F, 0x0FF8) := by decide

/-- FX-13, FX-14. -/
theorem test_ldVxMem : look ((poke (regs [(3, 0x77)]) 0x300 [2, 5, 4, 9]).setI 0x300) 0xF265
      (fun s => (s.reg 0, s.reg 1, s.reg 2, s.reg 3, s.i)) = some (2, 5, 4, 0x77, 0x300) ∧
    look ((poke State.reset 0x30F [0x9C]).setI 0x300) 0xFF65 (·.reg VF) = some 0x9C := by decide

/-! ### Unknown words, load and reset (UNK, LOAD, RST) -/

/-- UNK-1 to UNK-3, and the families 9, E and F. -/
theorem test_unknown :
    look State.reset 0x5121 (fun s => (s.reports, s.pc, s.run)) = some ([.unknown 0x5121 0x200], 0x202, .running) ∧
    look State.reset 0x0000 (fun s => (s.reports, s.pc)) = some ([.unknown 0x0000 0x200], 0x202) ∧
    look (regs [(VF, 0x33)]) 0x812F (fun s => (s.reports, s.reg VF)) = some ([.unknown 0x812F 0x200], 0x33) ∧
    look State.reset 0x912F (·.reports) = some [.unknown 0x912F 0x200] ∧
    look State.reset 0xE000 (·.reports) = some [.unknown 0xE000 0x200] ∧
    look State.reset 0xF085 (·.reports) = some [.unknown 0xF085 0x200] := by decide

/-- LOAD-1 in small: the bytes at 0x200, the rest of memory as at reset. -/
theorem test_load : (nextOf (perform (.load [0x62, 0x44]) State.reset)).map
    (fun s => (s.mem.read 0x1FF, s.mem.read 0x200, s.mem.read 0x201, s.mem.read 0x202)) = some (0, 0x62, 0x44, 0) := by decide

/-- R245: after a press and a release that lead back to the reset state's values no load is taken, until the next reset; a
tick and an acknowledgement change nothing there. -/
theorem test_load_after_events :
    nextOf (Sys2Proof.core.run 3 (State.reset.setSchedule [.key 1 true, .key 1 false, .load []])) = none ∧
    (nextOf (Sys2Proof.core.run 4 (State.reset.setSchedule [.key 1 true, .reset, .tick, .load [0x62]]))).map
      (fun s => s.mem.read 0x200) = some 0x62 := by decide

/-- D30: a machine that is not in the reset state takes no load. -/
theorem test_load_refused : nextOf (perform (.load []) (State.reset.setPc 0x202)) = none := by decide

/-- RST-1. -/
theorem test_reset : nextOf (perform .reset ((regs [(3, 9)]).raise .stackOverflow)) = some State.reset := by decide

/-- TMR-7 and R247: a halted core ticks on; with no turn left the run is at its fault stop. -/
theorem test_halted_ticks :
    (nextOf (Sys2Proof.core.run 3 (((State.reset.setSt 3).raise .stackUnderflow).setSchedule [.tick, .core, .tick]))).map (·.st) =
      some 1 := by decide

/-- 60_exceptions.md R221: the codes. -/
theorem test_fault_codes : FaultKind.stackOverflow.code = 1 ∧ FaultKind.stackUnderflow.code = 2 ∧
    FaultKind.pcOutOfRange.code = 3 ∧ loadFaultCode = 4 ∧ (Report.unknown 0 0).code = 0 := by decide

/-! ### Witnesses: a concrete case meets all hypotheses of each statement that has some -/

/-- RST-1: the font's last byte, the zero after it, and the last byte of memory. -/
theorem witness_ResetStateHoldsSpecValues : State.reset.mem.read 0x04F = 0x80 ∧ State.reset.mem.read 0x050 = 0x00 ∧
    State.reset.mem.read 0xFFF = 0x00 := by decide

theorem witness_DecodeInvertsEncode : (Instr.unknown8 0x812F).wellFormed = true ∧ (Instr.drw 1 2 3).wellFormed = true := by decide

theorem witness_UnknownSetIsExact : (0x5121 : Word).toNat / 0x1000 = 5 ∧ (0x5121 : Word).toNat % 0x10 ≠ 0 ∧
    (0x6000 : Word).toNat / 0x1000 = 6 := by decide

theorem witness_InstructionRowsDisjoint : ∃ r ∈ instructionRows, rowMatches 0x8125 r = true := ⟨_, List.mem_of_find?_eq_some
  (show instructionRows.find? (rowMatches 0x8125) = some ⟨"SUB", 0x8, .low4 0x5, fun w => .sub (xField w) (yField w)⟩ from rfl), rfl⟩

/-- The state the fetch witnesses share: LD V2, 0x44 at 0x200. -/
def atLd : State := poke State.reset 0x200 [0x62, 0x44]

theorem witness_StepRunsDecodedInstruction : atLd.env.schedule = [] ∧ atLd.run = .running ∧ atLd.pc.toNat ≤ 0xFFE ∧
    decode [atLd.mem.read atLd.pc.toNat, atLd.mem.read (atLd.pc.toNat + 1)] = .ok (.ldImm 2 0x44, []) := by decide

theorem witness_StepRunsDecodedInstruction_scheduled :
    (atLd.setSchedule [.core, .tick]).env.schedule = .core :: [.tick] ∧ (atLd.setSchedule [.core, .tick]).run = .running ∧
    0xFFE < ((State.reset.setPc 0xFFF).pc).toNat ∧ (0xFFE : Word).toNat ≤ 0xFFE ∧
    (State.reset.raise .stackUnderflow).run ≠ .running := by decide

theorem witness_FetchIsBigEndianInRange : atLd.run = .running ∧ atLd.pc.toNat ≤ 0xFFE ∧
    atLd.mem.read atLd.pc.toNat = (0x6244 : Word).extractLsb' 8 8 ∧
    atLd.mem.read (atLd.pc.toNat + 1) = (0x6244 : Word).extractLsb' 0 8 ∧ (State.reset.setPc 0xFFE).pc.toNat ≤ 0xFFE ∧
    0xFFE < (State.reset.setPc 0xFFF).pc.toNat := by decide

theorem witness_ScheduleChoosesTheTurn : (State.reset.setSchedule [.tick, .core]).env.schedule = .tick :: [.core] ∧
    State.reset.env.schedule = [] ∧ State.reset.run = .running ∧ (State.reset.setRun (.awaitingKey 3)).env.schedule = [] ∧
    (State.reset.setRun (.awaitingKey 3)).run = .awaitingKey 3 ∧ (State.reset.raise .stackUnderflow).env.schedule = [] ∧
    (State.reset.raise .stackUnderflow).run = .halted .stackUnderflow 0x200 := by decide

theorem witness_StopPointsLast_spin : SpinStop 0x200 (poke State.reset 0x200 [0x12, 0x00]) ∧ (0x200 : Addr12).toNat ≤ 0xFFE ∧
    ∃ t, perform .core (poke State.reset 0x200 [0x12, 0x00]) = .next t :=
  ⟨⟨rfl, by decide, by decide⟩, by decide, _, rfl⟩

theorem witness_StopPointsLast_fault : (State.reset.raise .stackUnderflow).run = .halted .stackUnderflow 0x200 ∧
    Turn.tick ≠ .reset ∧ ∃ t, perform .tick (State.reset.raise .stackUnderflow) = .next t := ⟨rfl, by decide, _, rfl⟩

/-- A wait stop with a tick and an acknowledgement left. -/
theorem witness_StopPointsLast_wait : ∃ s t : State, WaitStop s ∧ (∀ ts, s.env.schedule ≠ .reset :: ts) ∧ step s = .next t := by
  refine ⟨(State.reset.setRun (.awaitingKey 3)).setSchedule [.tick, .ackRedraw], _, ⟨⟨3, rfl⟩, ?_⟩, ?_, rfl⟩
  · have h : (((State.reset.setRun (.awaitingKey 3)).setSchedule [.tick, .ackRedraw]).env.schedule) = [.tick, .ackRedraw] := rfl
    simp [h, IsKeyEvent]
  · have h : (((State.reset.setRun (.awaitingKey 3)).setSchedule [.tick, .ackRedraw]).env.schedule) = [.tick, .ackRedraw] := rfl
    simp [h]

theorem witness_CallPushesOrOverflows : State.reset.sp.val < 16 ∧
    (State.reset.setStack State.reset.stack 15).sp.val < 16 ∧ (State.reset.setStack State.reset.stack 16).sp.val = 16 := by decide

theorem witness_RetPopsOrUnderflows : 0 < (State.reset.setStack State.reset.stack 1).sp.val ∧
    0 < (State.reset.setStack State.reset.stack 16).sp.val ∧ State.reset.sp.val = 0 := by decide

theorem witness_CallThenRetReturns : State.reset.sp.val < 16 ∧ (State.reset.setStack State.reset.stack 15).sp.val < 16 := by decide

theorem witness_RegisterSkipsMoveFourOrTwo : (regs [(1, 0x55)]).reg 1 = 0x55 ∧ (regs [(1, 0x55)]).reg 1 ≠ 0x56 ∧
    (regs [(1, 7), (2, 7)]).reg 1 = (regs [(1, 7), (2, 7)]).reg 2 ∧ (regs [(1, 7)]).reg 1 ≠ (regs [(1, 7)]).reg 2 := by decide

theorem witness_OtherInstructionsAdvanceByTwo : rewritesPc (.drw 0 1 5) = false ∧ rewritesPc (.unknown0 0) = false := by decide

theorem witness_flag_statements : (1 : Reg) ≠ VF ∧ (0xE : Reg) ≠ VF := by decide

theorem witness_shift_statements : (State.reset.env.shiftSource = .vx → (0 : Byte) = State.reset.reg 1) ∧
    (State.reset.env.shiftSource = .vy → (0 : Byte) = State.reset.reg 2) ∧ State.reset.env.shiftSource = .vx ∧
    (State.reset.setEnv { Env.reset with shiftSource := .vy }).env.shiftSource = .vy := by decide

theorem witness_FlagWritersLeaveVFZeroOrOne : writesFlag (.shl 1 2) = true ∧ writesFlag (.addImm 1 2) = false := by decide

/-- Glyph 0 at the origin covers (0, 0) and not (1, 1). -/
theorem witness_DrwXorsTheSprite : SpriteCovers State.reset 0 1 5 0 0 ∧ ¬ SpriteCovers State.reset 0 1 1 1 1 ∧
    (State.reset.setFb (State.reset.fb.toggle 0 0)).fb.pixel 0 0 = true ∧ State.reset.fb.pixel 0 0 = false := by
  refine ⟨⟨0, 0, by decide⟩, ?_, by decide, by decide⟩
  rintro ⟨r, c, hr, _, _, _, hy⟩
  have : r = 0 := by simpa using hr
  subst this
  exact absurd hy (by decide)

theorem witness_DrwTwiceRestoresTheScreen : (0 : Reg) ≠ VF ∧ (1 : Reg) ≠ VF ∧
    ∃ t u, exec (.drw 0 1 5) State.reset = .next t ∧ exec (.drw 0 1 5) t = .next u ∧ State.reset.fb.pixel 7 7 = false :=
  ⟨by decide, by decide, _, _, rfl, rfl, by decide⟩

theorem witness_KeySkipsMoveFourOrTwo : (5 : Reg).val = ((regs [(0, 0x15)]).reg 0).toNat % 16 ∧
    (State.reset.setKey 5 true).keys[(5 : Reg)] = true ∧ State.reset.keys[(5 : Reg)] = false := by decide

theorem witness_KeyEventUpdatesOrResumes : (15 : Nat) < 16 ∧ (State.reset.setRun (.awaitingKey 3)).run = .awaitingKey 3 ∧
    (State.reset.setRun (.awaitingKey 3)).keys[15] = false ∧ ((State.reset.setKey 15 true).setRun (.awaitingKey 3)).keys[15] = true ∧
    State.reset.run ≠ .awaitingKey 3 ∧ (16 : Nat) ≤ 16 := by decide

theorem witness_store_statements : State.reset.mem.wf ∧ ((0 : Reg) ≤ 0) ∧ ((0xF : Reg) ≤ 0xF) := by decide

theorem witness_LoadReadsRegistersInOrder : (0xF : Reg) ≤ 0xF ∧ (0xE : Reg) < 0xF := by decide

theorem witness_StoredRegistersLoadBack : ∃ t w, State.reset.mem.wf ∧ exec (.ldMemVx 2) State.reset = .next t ∧
    exec (.ldVxMem 2) (t.setReg 0 0x77) = .next w ∧ (t.setReg 0 0x77).mem = t.mem ∧ (t.setReg 0 0x77).i = t.i ∧ (2 : Reg) ≤ 2 :=
  ⟨_, _, by decide, rfl, rfl, rfl, rfl, le_rfl⟩

theorem witness_UnknownIsReportedAndPassed : (decodeWord 0x5121).unknownWord? = some 0x5121 := by decide

theorem witness_TickCountsBothTimersDown : State.reset.dt.toNat = 0 ∧ (State.reset.setDt 1).dt.toNat > 0 ∧
    (State.reset.setSt 0xFF).st.toNat > 0 := by decide

theorem witness_AckRedrawClearsDirty : (State.reset.setDirty true).dirty = true := by decide

theorem witness_LoadPlacesAllOrFaults : (State.reset.setSchedule [.load [0x12, 0x00]]).env.untouched = true ∧
    (State.reset.setSchedule [.load [0x12, 0x00]]).setEnv Env.reset = State.reset ∧
    ([0x12, 0x00] : List Byte).length ≤ 3584 ∧ (State.reset.setPc 0x202).setEnv Env.reset ≠ State.reset ∧
    State.reset.touch.env.untouched = false := by decide

theorem witness_LoadPlacesAllOrFaults_launched : ∃ u, Launched [0x12, 0x00] [.tick] u := ⟨_, _, rfl, rfl, rfl, rfl⟩

theorem witness_LoadIsRefusedOnceTouched : State.reset.run = .running ∧ (∃ t, perform .core State.reset = .next t) ∧
    (15 : Nat) < 16 ∧ State.reset.keys[15] ≠ true ∧ (∃ t, perform (.key 15 true) State.reset = .next t) ∧
    State.reset.touch.env.untouched = false ∧ Turn.core ≠ .reset :=
  ⟨rfl, ⟨_, rfl⟩, by decide, by decide, ⟨_, rfl⟩, rfl, by decide⟩

theorem witness_LoadPlacesAllOrFaults_tooLong : 3584 < (List.replicate 3585 (0 : Byte)).length ∧
    (List.replicate 3584 (0 : Byte)).length ≤ 3584 := by
  rw [List.length_replicate, List.length_replicate]
  omega

/-- A halted core with ST = 2 and a schedule of two ticks among other turns. -/
def haltedWithTicks : State :=
  ((State.reset.setSt 2).raise .stackUnderflow).setSchedule [.tick, .core, .key 3 true, .ackRedraw, .tick]

theorem witness_ToneEndsWhileHalted : haltedWithTicks.run = .halted .stackUnderflow 0x200 ∧
    (∀ t ∈ haltedWithTicks.env.schedule, t = .tick ∨ t = .core ∨ t = .ackRedraw ∨ ∃ k p, t = .key k p ∧ k < 16) ∧
    haltedWithTicks.st.toNat ≤ haltedWithTicks.env.schedule.count .tick := by
  refine ⟨by decide, ?_, by decide⟩
  intro t ht
  have : t ∈ [Turn.tick, .core, .key 3 true, .ackRedraw, .tick] := ht
  simp only [List.mem_cons, List.not_mem_nil, or_false] at this
  rcases this with h | h | h | h | h
  · exact .inl h
  · exact .inr (.inl h)
  · exact .inr (.inr (.inr ⟨3, true, h, by decide⟩))
  · exact .inr (.inr (.inl h))
  · exact .inl h

/-- The execution that only ticks, from a halted core. -/
theorem witness_FairTicksSilenceAHaltedCore : ∃ e : Execution, TickFair e ∧
    (e.state 0).run = .halted .stackUnderflow 0x200 ∧ ∀ m, 0 ≤ m → e.turn m ≠ .reset :=
  ⟨⟨fun n => Nat.rec (State.reset.raise .stackUnderflow) (fun _ s => s.tick) n, fun _ => .tick, fun _ => rfl⟩,
    fun n => ⟨n, le_rfl, rfl⟩, rfl, fun _ _ => by simp⟩

theorem witness_FaultsArePrecise : exec .ret State.reset = .next (State.reset.raise .stackUnderflow) := rfl

theorem witness_OnlyFourInstructionsReachMemory : ∃ t, exec (.addImm 1 2) State.reset = .next t ∧
    reachesMemory (.addImm 1 2) = false := ⟨_, rfl, rfl⟩

theorem witness_StaleStackSlotsAreUnseen : State.reset.sp.val ≤ (0 : Fin 16).val := by decide

theorem witness_HighIndexBitsReachNoAddress : reachesMemory (.ldBVx 1) = true ∧
    (0xF123 : Word).toNat % 4096 = (State.reset.setI 0x0123).i.toNat % 4096 := by decide

/-- Fx55 at 0x200 storing over both bytes after it, and over the second of them alone. -/
theorem witness_StoresAreSeenByTheNextFetch : ∃ s t : State, s.mem.wf ∧ s.run = .running ∧ t.pc.toNat ≤ 0xFFE ∧
    exec (.ldMemVx 1) s = .next t ∧
    ByteAfterStores (((List.finRange 16).filter (· ≤ (1 : Reg))).map fun k => (dataAddr s.i k.val, s.reg k)) s t.pc.toNat 0x12 ∧
    ByteAfterStores (((List.finRange 16).filter (· ≤ (1 : Reg))).map fun k => (dataAddr s.i k.val, s.reg k)) s (t.pc.toNat + 1) 0x34 :=
  ⟨(regs [(0, 0x12), (1, 0x34)]).setI 0x202, _, by decide, rfl, by decide, rfl, ⟨by decide, by decide⟩, ⟨by decide, by decide⟩⟩

theorem witness_StoresAreSeenByTheNextFetch_oneByte : ∃ s t : State, s.mem.wf ∧ s.run = .running ∧ t.pc.toNat ≤ 0xFFE ∧
    exec (.ldMemVx 0) s = .next t ∧
    ByteAfterStores (((List.finRange 16).filter (· ≤ (0 : Reg))).map fun k => (dataAddr s.i k.val, s.reg k)) s t.pc.toNat 0x60 ∧
    ByteAfterStores (((List.finRange 16).filter (· ≤ (0 : Reg))).map fun k => (dataAddr s.i k.val, s.reg k)) s (t.pc.toNat + 1) 0x34 :=
  ⟨poke ((regs [(0, 0x34)]).setI 0x203) 0x202 [0x60, 0x00], _, by decide, rfl, by decide, rfl, ⟨by decide, by decide⟩,
    ⟨by decide, by decide⟩⟩

/-- Fx33 with 123 whose tens and ones are the two bytes after it. -/
theorem witness_StoresAreSeenByTheNextFetch_bcd : ∃ s t : State, s.mem.wf ∧ s.run = .running ∧ t.pc.toNat ≤ 0xFFE ∧
    exec (.ldBVx 1) s = .next t ∧ (1 : Byte).toNat = (s.reg 1).toNat / 100 ∧ (2 : Byte).toNat = (s.reg 1).toNat / 10 % 10 ∧
    (3 : Byte).toNat = (s.reg 1).toNat % 10 ∧
    ByteAfterStores [(dataAddr s.i 0, 1), (dataAddr s.i 1, 2), (dataAddr s.i 2, 3)] s t.pc.toNat 2 ∧
    ByteAfterStores [(dataAddr s.i 0, 1), (dataAddr s.i 1, 2), (dataAddr s.i 2, 3)] s (t.pc.toNat + 1) 3 :=
  ⟨(regs [(1, 0x7B)]).setI 0x201, _, by decide, rfl, by decide, rfl, by decide, by decide, by decide, ⟨by decide, by decide⟩,
    ⟨by decide, by decide⟩⟩

theorem witness_CanonicalMemoriesAreEqual : Memory.wf [(0x200, 0x12)] ∧ Memory.wf (Memory.write [] 0x200 0x12) ∧
    ∀ a : Nat, a ≤ 0xFFF → (Memory.write [] 0x200 0x12).read a = Memory.read [(0x200, 0x12)] a :=
  ⟨by decide, by decide, fun _ _ => rfl⟩

/-- The invariant holds of a state a step leaves. -/
theorem witness_EveryStepKeepsTheInvariant : ∃ s t, Inv s ∧ step s = .next t :=
  ⟨State.reset, _, ⟨by decide, by decide, by decide, by simp [State.reset], by simp [State.reset], by simp [State.reset],
    by simp [State.reset], fun _ => rfl⟩, rfl⟩

end Sys2Proof.Tests
end

section
/-! SUPPORT. What an instruction can do to the state, said once for all the proofs about exec: stores, CALL and RET by
case, and what instructions keep. -/

namespace Sys2Proof.Machine

variable {i : Instr} {s t : State}

/-! ### A run of stores, element by element -/

@[simp] theorem State.storeRun_v (s : State) (k : Nat) (bs : List Byte) : (s.storeRun k bs).v = s.v := by
  rw [State.storeRun_eq_setMem]; rfl
@[simp] theorem State.storeRun_pc (s : State) (k : Nat) (bs : List Byte) : (s.storeRun k bs).pc = s.pc := by
  rw [State.storeRun_eq_setMem]; rfl
@[simp] theorem State.storeRun_stack (s : State) (k : Nat) (bs : List Byte) : (s.storeRun k bs).stack = s.stack := by
  rw [State.storeRun_eq_setMem]; rfl
@[simp] theorem State.storeRun_run (s : State) (k : Nat) (bs : List Byte) : (s.storeRun k bs).run = s.run := by
  rw [State.storeRun_eq_setMem]; rfl
@[simp] theorem State.storeRun_env (s : State) (k : Nat) (bs : List Byte) : (s.storeRun k bs).env = s.env := by
  rw [State.storeRun_eq_setMem]; rfl

/-- What a run of stores leaves in memory depends on memory and on the addresses I reaches, and on nothing else. -/
theorem State.storeRun_mem_congr (hm : t.mem = s.mem) (hi : ∀ k, dataAddr t.i k = dataAddr s.i k) (k : Nat)
    (bs : List Byte) : (t.storeRun k bs).mem = (s.storeRun k bs).mem := by
  induction bs generalizing s t k with
  | nil => exact hm
  | cons b rest ih => exact ih (s := s.writeI k b) (t := t.writeI k b) (by simp [hm, hi]) hi (k + 1)

theorem exec_ldBVx (x : Reg) (s : State) :
    exec (.ldBVx x) s = .next (s.setMem (s.storeRun 0 (bcdDigits (s.reg x))).mem).advance := by
  rw [← State.storeRun_eq_setMem]; rfl

theorem exec_ldMemVx (x : Reg) (s : State) :
    exec (.ldMemVx x) s = .next (s.setMem (s.storeRun 0 (s.regsUpTo x)).mem).advance := by
  rw [← State.storeRun_eq_setMem]; rfl

/-! ### CALL and RET by case (40_control_flow.md R102, R103) -/

theorem exec_call_of_lt (nnn : Addr12) (s : State) (h : s.sp.val < 16) :
    exec (.call nnn) s =
      .next ((s.setStack (s.stack.set s.sp.val (s.pc + 2) h) ⟨s.sp.val + 1, by omega⟩).setPc (zext16 nnn)) := by
  simp [exec, execCall, State.push?_of_lt s _ h]

theorem exec_call_full (nnn : Addr12) (s : State) (h : s.sp.val = 16) :
    exec (.call nnn) s = .next (s.raise .stackOverflow) := by
  simp [exec, execCall, State.push?_full s _ h]

theorem exec_ret_of_pos (s : State) (h : 0 < s.sp.val) :
    exec .ret s =
      .next ((s.setStack s.stack ⟨s.sp.val - 1, by omega⟩).setPc (s.stack[s.sp.val - 1]'(by omega))) := by
  simp [exec, execRet, State.pop?_of_pos s h]

theorem exec_ret_empty (s : State) (h : s.sp.val = 0) : exec .ret s = .next (s.raise .stackUnderflow) := by
  simp [exec, execRet, State.pop?_empty s h]

/-- SP holds 0 to 16 (10_state.md R26): there is room to push, or the stack is full. -/
theorem State.sp_lt_or_full (s : State) : s.sp.val < 16 ∨ s.sp.val = 16 := by omega

/-! ### What an instruction keeps, and where it leaves PC -/

/-- Only Fx0A, CALL and RET may change RUN; every other instruction keeps it, the stack and the record of R245. -/
theorem exec_keeps_control (hi : .run ∉ mayChange i) (h : exec i s = .next t) :
    t.run = s.run ∧ t.stack = s.stack ∧ t.env.untouched = s.env.untouched := by
  cases i with
  | call | ret | ldVxK => simp [mayChange] at hi
  | ldBVx | ldMemVx => cases h; simp
  | ldVxMem => obtain rfl := Host.Outcome.next.inj h; simp
  | _ => cases h; exact ⟨rfl, rfl, rfl⟩

/-- 40_control_flow.md R100: outside its list PC moves to the next word. -/
theorem exec_advances (hi : rewritesPc i = false) (h : exec i s = .next t) : t.pc = s.pc + 2 := by
  cases i with
  | jp | call | ret | jpV0 | seImm | sneImm | seReg | sneReg | skp | sknp | ldVxK => cases hi
  | ldBVx | ldMemVx => cases h; simp
  | ldVxMem => obtain rfl := Host.Outcome.next.inj h; simp
  | _ => cases h; rfl

theorem exec_call_keeps {nnn : Addr12} (h : exec (.call nnn) s = .next t) : t.v = s.v ∧ t.mem = s.mem := by
  obtain hsp | hsp := s.sp_lt_or_full
  · rw [exec_call_of_lt nnn s hsp] at h; cases h; exact ⟨rfl, rfl⟩
  · rw [exec_call_full nnn s hsp] at h; cases h; exact ⟨rfl, rfl⟩

theorem exec_ret_keeps (h : exec .ret s = .next t) : t.v = s.v ∧ t.mem = s.mem := by
  obtain hsp | hsp := s.sp.val.eq_zero_or_pos
  · rw [exec_ret_empty s hsp] at h; cases h; exact ⟨rfl, rfl⟩
  · rw [exec_ret_of_pos s hsp] at h; cases h; exact ⟨rfl, rfl⟩

/-- Every instruction keeps memory canonical: a store writes below 4096 in the canonical form. -/
theorem exec_keeps_mem_wf (hs : s.mem.wf) (h : exec i s = .next t) : t.mem.wf := by
  cases i with
  | call => exact (exec_call_keeps h).2 ▸ hs
  | ret => exact (exec_ret_keeps h).2 ▸ hs
  | ldBVx | ldMemVx => cases h; exact State.storeRun_wf s hs _ _
  | ldVxMem => obtain rfl := Host.Outcome.next.inj h; simpa using hs
  | _ => cases h; exact hs

end Sys2Proof.Machine
end

section
/-! SUPPORT. O58 and O59: the invariant of Safety.lean at reset and through every turn of every agent. -/

namespace Sys2Proof.Machine

variable {s t : State}

/-- Settles O58: the clauses about a core that waits or is halted are empty at reset. -/
theorem resetMeetsTheInvariant : Obligations.ResetMeetsTheInvariant where
  mem_wf := Memory.wf_nil
  pc_le := by decide
  stack_le := by decide
  waiting := by simp [State.reset]
  overflow := by simp [State.reset]
  underflow := by simp [State.reset]
  outOfRange := by simp [State.reset]
  untouched := fun _ => rfl

/-! ### Changes that the invariant does not see -/

/-- The step's parameters may change in any way that does not forget that something has happened since the reset. -/
theorem Inv.setEnv (h : Inv s) (e : Env) (he : e.untouched = true → s.env.untouched = true) : Inv (s.setEnv e) :=
  ⟨h.mem_wf, h.pc_le, h.stack_le, h.waiting, h.overflow, h.underflow, h.outOfRange, fun hu => h.untouched (he hu)⟩

theorem Inv.setSchedule (h : Inv s) (ts : List Turn) : Inv (s.setSchedule ts) := h.setEnv _ id

theorem Inv.touch (h : Inv s) : Inv s.touch := h.setEnv _ (by simp)

/-- A tick counts zero timers of the reset state to zero. -/
theorem Inv.tick (h : Inv s) : Inv s.tick :=
  ⟨h.mem_wf, h.pc_le, h.stack_le, h.waiting, h.overflow, h.underflow, h.outOfRange,
    fun hu => congrArg State.tick (h.untouched hu)⟩

theorem Inv.setDirty_false (h : Inv s) : Inv (s.setDirty false) :=
  ⟨h.mem_wf, h.pc_le, h.stack_le, h.waiting, h.overflow, h.underflow, h.outOfRange,
    fun hu => congrArg (State.setDirty · false) (h.untouched hu)⟩

/-- While the core runs, memory may be replaced: only a waiting core's Fx0A is tied to it. -/
theorem Inv.setMem (h : Inv s) (hr : s.run = .running) {m : Memory} (hm : m.wf) : Inv (s.setMem m) :=
  ⟨hm, h.pc_le, h.stack_le, by simp [hr], h.overflow, h.underflow, h.outOfRange, h.untouched⟩

/-- A key number's event that is no edge of a wait only updates KEYS; one that leaves its key as it was changes nothing. -/
theorem Inv.note_setKey (h : Inv s) (k : Reg) (p : Bool) : Inv ((s.note (s.keys[k] == p)).setKey k p) := by
  refine ⟨h.mem_wf, h.pc_le, h.stack_le, h.waiting, h.overflow, h.underflow, h.outOfRange, fun hu => ?_⟩
  obtain ⟨hk, hu⟩ : s.keys[k] = p ∧ s.env.untouched = true := by simpa using hu
  have hkeys : s.keys.set k.val p k.isLt = s.keys := by subst hk; simp
  rw [← h.untouched hu]
  simp [State.setKey, State.note, State.setEnv, State.setMem, hkeys]

/-! ### A running core, and a core that stops -/

/-- The clauses of the invariant that speak of a core that is not running are empty while it runs. -/
theorem Inv.of_running (hr : s.run = .running) (hu : s.env.untouched = false) (hm : s.mem.wf)
    (hpc : s.pc.toNat ≤ 0x10FE) (hst : ∀ k : Fin 16, (s.stack[k]).toNat ≤ 0x1000) : Inv s :=
  ⟨hm, hpc, hst, by simp [hr], by simp [hr], by simp [hr], by simp [hr], by simp [hu]⟩

/-- Taking a fault under its own condition (60_exceptions.md R222 to R225). -/
theorem Inv.raise (h : Inv s) (hu : s.env.untouched = false) (kind : FaultKind)
    (hover : kind = .stackOverflow → s.sp = 16) (hunder : kind = .stackUnderflow → s.sp = 0)
    (hrange : kind = .pcOutOfRange → 0xFFE < s.pc.toNat) : Inv (s.raise kind) := by
  refine ⟨h.mem_wf, h.pc_le, h.stack_le, ?_, ?_, ?_, ?_, by simp [hu]⟩
  · simp
  all_goals
    intro a ha
    simp only [State.raise_run, RunState.halted.injEq] at ha
    obtain ⟨hkind, rfl⟩ := ha
  · exact ⟨rfl, hover hkind⟩
  · exact ⟨rfl, hunder hkind⟩
  · exact ⟨rfl, hrange hkind⟩

/-- The end of the wait of Fx0A (44_input.md R184). -/
theorem Inv.resume (h : Inv s) (hu : s.env.untouched = false) {x : Reg} (hr : s.run = .awaitingKey x) (k : Reg) :
    Inv (s.resume x k) := by
  obtain ⟨hpc, -⟩ := h.waiting x hr
  refine Inv.of_running rfl hu h.mem_wf ?_ h.stack_le
  have : (s.resume x k).pc = s.pc + 2 := rfl
  rw [this]; bv_omega

/-! ### Instructions -/

theorem State.skipIf_pc_le (hpc : s.pc.toNat ≤ 0xFFE) (c : Bool) : (s.skipIf c).pc.toNat ≤ 0x10FE := by
  cases c <;> simp only [State.skipIf_pc, Bool.false_eq_true, if_true, if_false] <;> bv_omega

/-- 10_state.md R24: where an instruction fetched at 0xFFE or below leaves PC, if the core runs on. -/
theorem exec_pc_le {i : Instr} (hi : .run ∉ mayChange i) (hpc : s.pc.toNat ≤ 0xFFE) (h : exec i s = .next t) :
    t.pc.toNat ≤ 0x10FE := by
  cases i with
  | call | ret | ldVxK => simp [mayChange] at hi
  | jp nnn =>
    cases h
    have := nnn.isLt
    simp only [State.setPc_pc, zext16_toNat (by decide : 12 ≤ 16)]; omega
  | jpV0 nnn =>
    cases h
    have hn := nnn.isLt
    have hv := (s.reg 0).isLt
    simp only [State.setPc_pc, BitVec.toNat_add, zext16_toNat (by decide : 12 ≤ 16), zext16_toNat (by decide : 8 ≤ 16)]
    omega
  | seImm | sneImm | seReg | sneReg | skp | sknp => cases h; exact State.skipIf_pc_le hpc _
  | _ => rw [exec_advances rfl h]; bv_omega

/-- Every instruction that neither calls, returns nor waits keeps the invariant: the core runs on. -/
theorem Inv.after_exec {i : Instr} (h : Inv s) (hi : .run ∉ mayChange i) (hr : s.run = .running)
    (hu : s.env.untouched = false) (hpc : s.pc.toNat ≤ 0xFFE) (he : exec i s = .next t) : Inv t := by
  obtain ⟨hrun, hstack, huntouched⟩ := exec_keeps_control hi he
  exact Inv.of_running (hrun.trans hr) (huntouched.trans hu) (exec_keeps_mem_wf h.mem_wf he) (exec_pc_le hi hpc he)
    (hstack ▸ h.stack_le)

/-- A call pushes the address after it, at most 0x1000, or overflows (40_control_flow.md R102). -/
theorem Inv.after_call (h : Inv s) (hr : s.run = .running) (hu : s.env.untouched = false) (hpc : s.pc.toNat ≤ 0xFFE)
    {nnn : Addr12} (he : exec (.call nnn) s = .next t) : Inv t := by
  obtain hsp | hsp := s.sp_lt_or_full
  · rw [exec_call_of_lt nnn s hsp] at he
    cases he
    refine Inv.of_running hr hu h.mem_wf ?_ fun k => ?_
    · have := nnn.isLt
      simp only [State.setPc_pc, zext16_toNat (by decide : 12 ≤ 16)]; omega
    · simp only [State.setPc_stack, State.setStack_stack, Fin.getElem_fin, Vector.getElem_set]
      split
      · bv_omega
      · exact h.stack_le k
  · rw [exec_call_full nnn s hsp] at he
    cases he
    exact h.raise hu _ (fun _ => Fin.ext hsp) nofun nofun

/-- A return goes to a stacked address, or underflows (40_control_flow.md R103). -/
theorem Inv.after_ret (h : Inv s) (hr : s.run = .running) (hu : s.env.untouched = false)
    (he : exec .ret s = .next t) : Inv t := by
  obtain hsp | hsp := s.sp.val.eq_zero_or_pos
  · rw [exec_ret_empty s hsp] at he
    cases he
    exact h.raise hu _ nofun (fun _ => Fin.ext hsp) nofun
  · rw [exec_ret_of_pos s hsp] at he
    cases he
    have hret := h.stack_le ⟨s.sp.val - 1, by omega⟩
    exact Inv.of_running hr hu h.mem_wf (hret.trans (by decide)) h.stack_le

/-- The wait begins where the Fx0A was fetched (44_input.md R183). -/
theorem Inv.after_ldVxK (h : Inv s) (hu : s.env.untouched = false) (hpc : s.pc.toNat ≤ 0xFFE) {x : Reg}
    (hx : decodeWord s.fetchWord = .ldVxK x) (he : exec (.ldVxK x) s = .next t) : Inv t := by
  cases he
  refine ⟨h.mem_wf, h.pc_le, h.stack_le, fun y hy => ?_, by simp, by simp, by simp, by simp [hu]⟩
  obtain rfl : x = y := by simpa using hy
  exact ⟨hpc, hx⟩

/-! ### Turns -/

/-- A core step (60_exceptions.md R220), after the record that it has come. -/
theorem Inv.after_coreStep (h : Inv s) (hr : s.run = .running) (hu : s.env.untouched = false) (he : coreStep s = .next t) :
    Inv t := by
  unfold coreStep at he
  split at he
  next hpc =>
    cases hi : decodeWord s.fetchWord with
    | call nnn => exact h.after_call hr hu hpc (hi ▸ he)
    | ret => exact h.after_ret hr hu (hi ▸ he)
    | ldVxK x => exact h.after_ldVxK hu hpc hi (hi ▸ he)
    | _ => exact h.after_exec (by simp [hi, mayChange]) hr hu hpc he
  next hpc =>
    cases he
    exact h.raise hu _ nofun nofun fun _ => Nat.lt_of_not_le hpc

/-- The core's turn: a core step where the core runs, and nothing elsewhere (log entry 4). -/
theorem Inv.after_coreTurn (h : Inv s) (he : coreTurn s = .next t) : Inv t := by
  by_cases hr : s.run = .running
  · rw [coreTurn_running s hr] at he
    exact h.touch.after_coreStep hr rfl he
  · rw [coreTurn_idle s hr] at he
    cases he
    exact h

/-- A key event either ends a wait or only updates KEYS (60_exceptions.md R241). -/
theorem Inv.keyEvent (h : Inv s) (k : Reg) (p : Bool) : Inv (s.keyEvent k p) := by
  by_cases hedge : ∃ x, s.run = .awaitingKey x ∧ p = true ∧ s.keys[k] = false
  · obtain ⟨x, hr, rfl, hk⟩ := hedge
    rw [State.keyEvent_edge s k x hr hk]
    exact h.touch.resume rfl hr k
  · rw [State.keyEvent_other s k p fun x hr hp => by
      simpa using fun hk : s.keys[k] = false => hedge ⟨x, hr, hp, hk⟩]
    exact h.note_setKey k p

/-- A ROM that fits lies below 4096, and the core of the reset state runs (60_exceptions.md R245). -/
theorem Inv.after_load (h : Inv s) {rom : List Byte} (he : loadPort rom s = .next t) : Inv t := by
  unfold loadPort at he
  split at he
  next hreset =>
    split at he
    next hfits =>
      cases he
      have hr : s.run = .running := congrArg State.run (s.atReset_iff.mp hreset).2
      have hend : 0x200 + rom.length ≤ 4096 := Nat.add_le_add_left hfits 0x200
      exact h.setMem hr (Memory.wf_writeBytes _ h.mem_wf _ rom hend)
    next => cases he
  next => cases he

/-- Every turn of every agent keeps the invariant. -/
theorem Inv.after_perform (h : Inv s) {turn : Turn} (he : perform turn s = .next t) : Inv t := by
  cases turn with
  | core => exact h.after_coreTurn he
  | tick => cases he; exact h.tick
  | key k p =>
    simp only [perform, keyPort] at he
    split at he
    · cases he; exact h.keyEvent _ p
    · cases he
  | ackRedraw => cases he; exact h.setDirty_false
  | load rom => exact h.after_load he
  | reset => cases he; exact resetMeetsTheInvariant.setEnv _ fun _ => rfl

/-- Settles O59, turn by turn: a step is the next scheduled turn, or a core step where none is scheduled. -/
theorem everyStepKeepsTheInvariant : Obligations.EveryStepKeepsTheInvariant := by
  intro s t h he
  cases hs : s.env.schedule with
  | cons turn ts =>
    rw [step_scheduled s turn ts hs] at he
    exact (h.setSchedule ts).after_perform he
  | nil =>
    rw [step_unscheduled s hs] at he
    cases hr : s.run with
    | running =>
      rw [unscheduled_running s hr] at he
      exact h.touch.after_coreStep hr rfl he
    | awaitingKey x => simp [unscheduled, hr] at he
    | halted kind addr => simp [unscheduled, hr] at he

end Sys2Proof.Machine
end

section
/-! SUPPORT. O26: what goes into VF as a flag, and which registers an instruction writes (10_state.md R22). -/

namespace Sys2Proof.Machine

variable {i : Instr} {s t : State}

/-! ### Flags are 0 or 1 -/

theorem carryFlag_zero_or_one (a b : Byte) : carryFlag a b = 0 ∨ carryFlag a b = 1 := boolByte_zero_or_one _

theorem noBorrowFlag_zero_or_one (a b : Byte) : noBorrowFlag a b = 0 ∨ noBorrowFlag a b = 1 := boolByte_zero_or_one _

theorem shrFlag_zero_or_one (b : Byte) : shrFlag b = 0 ∨ shrFlag b = 1 := by
  have h := shrFlag_toNat b
  have : (shrFlag b).toNat = 0 ∨ (shrFlag b).toNat = 1 := by omega
  exact this.imp BitVec.eq_of_toNat_eq BitVec.eq_of_toNat_eq

theorem shlFlag_zero_or_one (b : Byte) : shlFlag b = 0 ∨ shlFlag b = 1 := by
  have h := shlFlag_toNat b
  have hb := b.isLt
  have : (shlFlag b).toNat = 0 ∨ (shlFlag b).toNat = 1 := by omega
  exact this.imp BitVec.eq_of_toNat_eq BitVec.eq_of_toNat_eq

/-- The flag is written last, so it stays in VF even where the result goes to VF too (00_scope.md R13, D6). -/
@[simp] theorem State.setResultFlag_reg_VF (s : State) (x : Reg) (b f : Byte) : (s.setResultFlag x b f).reg VF = f := by
  simp [State.reg_setResultFlag]

/-- R22: a flag writer leaves VF 0 or 1. -/
theorem exec_flag_zero_or_one (hi : writesFlag i = true) (h : exec i s = .next t) : t.reg VF = 0 ∨ t.reg VF = 1 := by
  cases i with
  | addReg => cases h; simpa using carryFlag_zero_or_one _ _
  | sub | subn => cases h; simpa using noBorrowFlag_zero_or_one _ _
  | shr => cases h; simpa using shrFlag_zero_or_one _
  | shl => cases h; simpa using shlFlag_zero_or_one _
  | drw => cases h; simpa using boolByte_zero_or_one _
  | _ => cases hi

/-! ### The registers an instruction writes -/

theorem sameRegsExcept_of_v_eq (h : t.v = s.v) (rs : List Reg) : SameRegsExcept rs s t :=
  fun r _ => State.reg_congr h r

theorem sameRegsExcept_setReg (s : State) (x : Reg) (b : Byte) : SameRegsExcept [x] s (s.setReg x b) :=
  fun r hr => State.reg_setReg_ne s (by simpa using hr) b

theorem sameRegsExcept_setResultFlag (s : State) (x : Reg) (b f : Byte) :
    SameRegsExcept [x, VF] s (s.setResultFlag x b f) := by
  intro r hr
  obtain ⟨hx, hVF⟩ : r ≠ x ∧ r ≠ VF := by simpa using hr
  simp [State.reg_setResultFlag, hx, hVF]

theorem sameRegsExcept_loadRegs (s : State) (x : Reg) :
    SameRegsExcept ((List.finRange 16).filter (· ≤ x)) s (s.loadRegs x) := by
  intro r hr
  have : ¬ r ≤ x := by simpa using hr
  simp [State.reg_loadRegs, this]

theorem SameRegsExcept.advance {rs : List Reg} (h : SameRegsExcept rs s t) : SameRegsExcept rs s t.advance := h

/-- The registers an instruction leaves alone: all but those that `writtenRegs` names. -/
theorem exec_sameRegsExcept (h : exec i s = .next t) : SameRegsExcept (writtenRegs i) s t := by
  cases i with
  | ldImm x | addImm x | ldReg x | orReg x | andReg x | xorReg x | ldVxDt x | rnd x =>
    cases h; exact (sameRegsExcept_setReg s x _).advance
  | addReg x | sub x | shr x | subn x | shl x => cases h; exact (sameRegsExcept_setResultFlag s x _ _).advance
  | drw => cases h; exact sameRegsExcept_setReg _ VF _
  | ldVxMem x => obtain rfl := Host.Outcome.next.inj h; exact (sameRegsExcept_loadRegs s x).advance
  | ldBVx | ldMemVx => cases h; exact sameRegsExcept_of_v_eq (by simp) _
  | call => exact sameRegsExcept_of_v_eq (exec_call_keeps h).1 _
  | ret => exact sameRegsExcept_of_v_eq (exec_ret_keeps h).1 _
  | _ => cases h; exact sameRegsExcept_of_v_eq rfl _

/-- Settles O26: exec always answers, each flag is 0 or 1, and the registers follow instruction by instruction. -/
theorem flagWritersLeaveVFZeroOrOne : Obligations.FlagWritersLeaveVFZeroOrOne := by
  intro i s
  obtain ⟨t, h⟩ := exec_answers_next i s
  exact ⟨t, h, fun hi => exec_flag_zero_or_one hi h, exec_sameRegsExcept h⟩

end Sys2Proof.Machine
end

section
/-! SUPPORT. O53, O54, O55: what an instruction does not read (10_state.md R23, R25, R36). Each instruction runs alike from a
state and from that state with the unread part replaced, and leaves two states that differ in that part alone. -/

namespace Sys2Proof.Machine

variable {s t : State}

/-! ### What the memory instructions read -/

/-- Two states alike in all that Fx33, Fx55 and Fx65 read: the registers, memory and the data addresses that I reaches. -/
structure SameOperands (s t : State) : Prop where
  v : t.v = s.v
  mem : t.mem = s.mem
  addr : ∀ k, dataAddr t.i k = dataAddr s.i k

theorem SameOperands.refl (s : State) : SameOperands s s := ⟨rfl, rfl, fun _ => rfl⟩

theorem SameOperands.readI (h : SameOperands s t) (k : Nat) : t.readI k = s.readI k := by
  rw [State.readI, State.readI, h.mem, h.addr]

/-- The memory that Fx33 leaves is the same from all states alike in the operands. -/
theorem exec_ldBVx_of_sameOperands (x : Reg) (s : State) :
    ∃ m : Memory, ∀ t, SameOperands s t → exec (.ldBVx x) t = .next (t.setMem m).advance :=
  ⟨_, fun t h => by rw [exec_ldBVx, State.reg_congr h.v, State.storeRun_mem_congr h.mem h.addr]⟩

/-- The memory that Fx55 leaves is the same from all states alike in the operands. -/
theorem exec_ldMemVx_of_sameOperands (x : Reg) (s : State) :
    ∃ m : Memory, ∀ t, SameOperands s t → exec (.ldMemVx x) t = .next (t.setMem m).advance :=
  ⟨_, fun t h => by rw [exec_ldMemVx, State.regsUpTo, h.v, State.storeRun_mem_congr h.mem h.addr]⟩

/-- The registers that Fx65 leaves are the same from all states alike in the operands. -/
theorem exec_ldVxMem_of_sameOperands (x : Reg) (s : State) :
    ∃ v : Vector Byte 16, ∀ t, SameOperands s t → exec (.ldVxMem x) t = .next { t with v := v }.advance :=
  ⟨(s.loadRegs x).v, fun t h => by
    simp only [exec, execLdVxMem, State.loadRegs, h.readI, State.reg_congr h.v]⟩

theorem SameOperands.spritePixels (h : SameOperands s t) (x y : Reg) (n : Nibble) :
    t.spritePixels x y n = s.spritePixels x y n := by
  simp only [State.spritePixels, h.readI, State.reg_congr h.v]

/-! ### DIRTY and REPORTS -/

/-- The state with other outputs. -/
def State.withOutputs (s : State) (d : Bool) (rs : List Report) : State := { s with dirty := d, reports := rs }

theorem sameOperands_withOutputs (s : State) (d : Bool) (rs : List Report) : SameOperands s (s.withOutputs d rs) :=
  ⟨rfl, rfl, fun _ => rfl⟩

theorem changesOnly_withOutputs (s : State) (d : Bool) (rs : List Report) :
    ChangesOnly [.dirty, .reports] s (s.withOutputs d rs) := by
  intro e he
  cases e <;> simp [Unchanged, State.withOutputs, State.reg] at he ⊢

/-- DIRTY and REPORTS are written (00E0, Dxyn, the Unknown words) and never read. -/
theorem exec_withOutputs (i : Instr) (s : State) (d : Bool) (rs : List Report) :
    ∃ t d' rs', exec i s = .next t ∧ exec i (s.withOutputs d rs) = .next (t.withOutputs d' rs') := by
  cases i with
  | cls | drw => exact ⟨_, true, rs, rfl, rfl⟩
  | unknown0 w | unknown5 w | unknown8 w | unknown9 w | unknownE w | unknownF w =>
    exact ⟨_, d, rs ++ [Report.unknown w s.pc], rfl, rfl⟩
  | call nnn =>
    obtain hsp | hsp := s.sp_lt_or_full
    · exact ⟨_, d, rs, exec_call_of_lt nnn s hsp, exec_call_of_lt nnn (s.withOutputs d rs) hsp⟩
    · exact ⟨_, d, rs, exec_call_full nnn s hsp, exec_call_full nnn (s.withOutputs d rs) hsp⟩
  | ret =>
    obtain hsp | hsp := s.sp.val.eq_zero_or_pos
    · exact ⟨_, d, rs, exec_ret_empty s hsp, exec_ret_empty (s.withOutputs d rs) hsp⟩
    · exact ⟨_, d, rs, exec_ret_of_pos s hsp, exec_ret_of_pos (s.withOutputs d rs) hsp⟩
  | ldBVx x =>
    obtain ⟨_, hx⟩ := exec_ldBVx_of_sameOperands x s
    exact ⟨_, d, rs, hx s (.refl s), hx _ (sameOperands_withOutputs s d rs)⟩
  | ldMemVx x =>
    obtain ⟨_, hx⟩ := exec_ldMemVx_of_sameOperands x s
    exact ⟨_, d, rs, hx s (.refl s), hx _ (sameOperands_withOutputs s d rs)⟩
  | ldVxMem x =>
    obtain ⟨_, hx⟩ := exec_ldVxMem_of_sameOperands x s
    exact ⟨_, d, rs, hx s (.refl s), hx _ (sameOperands_withOutputs s d rs)⟩
  | _ => exact ⟨_, d, rs, rfl, rfl⟩

/-- Settles O54: the two runs leave states that differ in the outputs alone. -/
theorem noInstructionReadsTheOutputs : Obligations.NoInstructionReadsTheOutputs := by
  intro i s d rs
  obtain ⟨t, d', rs', ht, hu⟩ := exec_withOutputs i s d rs
  exact ⟨t, _, ht, hu, changesOnly_withOutputs t d' rs'⟩

/-! ### Stack slots at or above SP -/

/-- Two stacks hold the same return addresses in the slots below SP. -/
def AgreeBelow (sp : Fin 17) (k l : Vector Word 16) : Prop := ∀ j : Fin 16, j.val < sp.val → l[j] = k[j]

theorem sameOperands_setStack (s : State) (k : Vector Word 16) (p : Fin 17) : SameOperands s (s.setStack k p) :=
  ⟨rfl, rfl, fun _ => rfl⟩

theorem changesOnly_setStack (s : State) (k : Vector Word 16) : ChangesOnly [.stack] s (s.setStack k s.sp) := by
  intro e he
  cases e <;> simp [Unchanged] at he ⊢

theorem agreeBelow_set {sp : Fin 17} {k : Fin 16} (h : sp.val ≤ k.val) (stack : Vector Word 16) (a : Word) :
    AgreeBelow sp stack (stack.set k.val a k.isLt) := by
  intro j hj
  have : k.val ≠ j.val := by omega
  simp [this]

/-- Pushing the same address on both stacks makes them agree one slot further up. -/
theorem AgreeBelow.push {sp : Fin 17} {k l : Vector Word 16} (h : AgreeBelow sp k l) (hsp : sp.val < 16) (a : Word) :
    AgreeBelow ⟨sp.val + 1, by omega⟩ (k.set sp.val a hsp) (l.set sp.val a hsp) := by
  intro j hj
  simp only [Fin.getElem_fin, Vector.getElem_set]
  split
  · rfl
  · exact h j (by simp only at hj; omega)

/-- An instruction sees of the stack only the slots below SP, and leaves alike those below the SP it leaves. -/
theorem exec_setStack (i : Instr) (s : State) (k : Vector Word 16) (hk : AgreeBelow s.sp s.stack k) :
    ∃ t k', exec i s = .next t ∧ exec i (s.setStack k s.sp) = .next (t.setStack k' t.sp) ∧
      AgreeBelow t.sp t.stack k' := by
  cases i with
  | call nnn =>
    obtain hsp | hsp := s.sp_lt_or_full
    · exact ⟨_, _, exec_call_of_lt nnn s hsp, exec_call_of_lt nnn (s.setStack k s.sp) hsp, hk.push hsp _⟩
    · exact ⟨_, k, exec_call_full nnn s hsp, exec_call_full nnn (s.setStack k s.sp) hsp, hk⟩
  | ret =>
    obtain hsp | hsp := s.sp.val.eq_zero_or_pos
    · exact ⟨_, k, exec_ret_empty s hsp, exec_ret_empty (s.setStack k s.sp) hsp, hk⟩
    · have hpop : k[s.sp.val - 1]'(by omega) = s.stack[s.sp.val - 1]'(by omega) :=
        hk ⟨s.sp.val - 1, by omega⟩ (Nat.sub_one_lt_of_lt hsp)
      refine ⟨_, k, exec_ret_of_pos s hsp, ?_, fun j hj => hk j (Nat.lt_of_lt_of_le hj (Nat.sub_le _ _))⟩
      rw [exec_ret_of_pos (s.setStack k s.sp) hsp, ← hpop]
      rfl
  | ldBVx x =>
    obtain ⟨_, hx⟩ := exec_ldBVx_of_sameOperands x s
    exact ⟨_, k, hx s (.refl s), hx _ (sameOperands_setStack s k s.sp), hk⟩
  | ldMemVx x =>
    obtain ⟨_, hx⟩ := exec_ldMemVx_of_sameOperands x s
    exact ⟨_, k, hx s (.refl s), hx _ (sameOperands_setStack s k s.sp), hk⟩
  | ldVxMem x =>
    obtain ⟨_, hx⟩ := exec_ldVxMem_of_sameOperands x s
    exact ⟨_, k, hx s (.refl s), hx _ (sameOperands_setStack s k s.sp), hk⟩
  | _ => exact ⟨_, k, rfl, rfl, hk⟩

/-- Settles O53: a stack changed at or above SP agrees with the old one below SP. -/
theorem staleStackSlotsAreUnseen : Obligations.StaleStackSlotsAreUnseen := by
  intro i s k a hk
  obtain ⟨t, stack', ht, hu, hagree⟩ := exec_setStack i s _ (agreeBelow_set hk s.stack a)
  exact ⟨t, _, ht, hu, changesOnly_setStack t stack', hagree⟩

/-! ### Bits 15 to 12 of I -/

theorem dataAddr_congr {a b : Word} (h : a.toNat % 4096 = b.toNat % 4096) (k : Nat) : dataAddr a k = dataAddr b k := by
  simp only [dataAddr, Config.memSize]; omega

/-- Settles O55: an I with the same low 12 bits gives the same data addresses, so the same operands. -/
theorem highIndexBitsReachNoAddress : Obligations.HighIndexBitsReachNoAddress := by
  intro i s a hi ha
  have hsame : SameOperands s (s.setI a) := ⟨rfl, rfl, dataAddr_congr ha⟩
  cases i with
  | drw x y n =>
    refine ⟨_, rfl, ?_⟩
    simp only [exec, execDrw, hsame.spritePixels]
    rfl
  | ldBVx x =>
    obtain ⟨_, hx⟩ := exec_ldBVx_of_sameOperands x s
    exact ⟨_, hx s (.refl s), hx _ hsame⟩
  | ldMemVx x =>
    obtain ⟨_, hx⟩ := exec_ldMemVx_of_sameOperands x s
    exact ⟨_, hx s (.refl s), hx _ hsame⟩
  | ldVxMem x =>
    obtain ⟨_, hx⟩ := exec_ldVxMem_of_sameOperands x s
    exact ⟨_, hx s (.refl s), hx _ hsame⟩
  | _ => cases hi

end Sys2Proof.Machine
end

section
/-! SUPPORT. O1: the reset state, element by element (10_state.md R37). -/

namespace Sys2Proof.Machine

theorem initialByte_eq_getD (a : Nat) : initialByte a = fontGlyphs.getD a 0 := by simp [initialByte, fontBase]

theorem initialByte_of_le {a : Nat} (h : 0x50 ≤ a) : initialByte a = 0 := by
  rw [initialByte_eq_getD]
  exact List.getD_eq_default _ _ h

/-- Settles O1: memory by the reset byte of an address, the rest by computation. -/
theorem resetStateHoldsSpecValues : Obligations.ResetStateHoldsSpecValues :=
  ⟨by decide, rfl, rfl, by decide, rfl, rfl, rfl, by decide, blankScreen_pixel, rfl,
    fun a _ => initialByte_eq_getD a, fun _ h _ => initialByte_of_le h, rfl, rfl⟩

end Sys2Proof.Machine
end

section
/-! SUPPORT. O2, O9, O57: the font at reset, the fetch of a core step, and canonical memories as data (20_memory.md R50 to
R59). -/

namespace Sys2Proof.Machine

variable {s : State}

/-- Settles O2: the eighty reset bytes, glyph by glyph. -/
theorem fontGlyphsStandAtFontBase : Obligations.FontGlyphsStandAtFontBase := by
  unfold Obligations.FontGlyphsStandAtFontBase
  decide

/-! ### The core step (20_memory.md R58, R59) -/

/-- In range, the core step executes the word made of the byte at PC, uppermost, and the byte after it. -/
theorem coreStep_of_bytes (hpc : s.pc.toNat ≤ 0xFFE) {hi lo : Byte} (hhi : s.mem.read s.pc.toNat = hi)
    (hlo : s.mem.read (s.pc.toNat + 1) = lo) : coreStep s = exec (decodeWord (hi ++ lo)) s := by
  simp [coreStep, hpc, State.fetchWord, Memory.fetch, hhi, hlo]

theorem coreStep_of_pc_gt (hpc : 0xFFE < s.pc.toNat) : coreStep s = .next (s.raise .pcOutOfRange) := by
  simp [coreStep, hpc]

/-- Settles O9: a word is its upper byte followed by its lower byte. -/
theorem fetchIsBigEndianInRange : Obligations.FetchIsBigEndianInRange := by
  intro s _
  refine ⟨fun hpc w hhi hlo => ?_, coreStep_of_pc_gt⟩
  have hw : w.extractLsb' 8 8 ++ w.extractLsb' 0 8 = w := wordOfBytes_bytesOfWord w
  rw [coreStep_of_bytes hpc hhi hlo, hw]

/-! ### Canonical memories (log entry 13) -/

/-- In a rising list the byte at a listed address is the listed one. -/
theorem Memory.read_of_mem {m : Memory} (h : m.Pairwise fun c d => c.1 < d.1) {c : Host.Cell} (hc : c ∈ m) :
    m.read c.1 = c.2 := by
  induction m with
  | nil => cases hc
  | cons p rest ih =>
    obtain ⟨hlt, hrest⟩ := List.pairwise_cons.mp h
    obtain rfl | hc := List.mem_cons.mp hc
    · simp [read]
    · simp [read, (hlt c hc).ne, ih hrest hc]

/-- A byte that differs from its reset byte is listed. -/
theorem Memory.mem_of_read_ne {m : Memory} {a : Nat} (h : m.read a ≠ initialByte a) : (a, m.read a) ∈ m := by
  induction m with
  | nil => exact absurd rfl h
  | cons p rest ih =>
    by_cases hp : p.1 = a
    · simp [read, hp.symm]
    · simp only [read, hp, if_false] at h ⊢
      exact List.mem_cons_of_mem _ (ih h)

/-- What a canonical memory lists: the bytes below 4096 that differ from their reset byte. -/
theorem Memory.mem_iff {m : Memory} (h : m.wf) (c : Host.Cell) :
    c ∈ m ↔ c.1 ≤ 0xFFF ∧ c.2 ≠ initialByte c.1 ∧ m.read c.1 = c.2 := by
  constructor
  · intro hc
    obtain ⟨hlt, hne⟩ := h.2 c hc
    exact ⟨Nat.le_of_lt_succ hlt, hne, Memory.read_of_mem h.1 hc⟩
  · rintro ⟨-, hne, hread⟩
    have hc : (c.1, m.read c.1) ∈ m := Memory.mem_of_read_ne (hread ▸ hne)
    rwa [hread] at hc

/-- Settles O57: reading fixes what a canonical memory lists, and the rising order fixes the list. -/
theorem canonicalMemoriesAreEqual : Obligations.CanonicalMemoriesAreEqual := by
  intro m n hm hn hread
  have hmem : ∀ c, c ∈ m ↔ c ∈ n := fun c => by
    rw [Memory.mem_iff hm, Memory.mem_iff hn]
    exact and_congr_right fun hc => by rw [hread c.1 hc]
  have : Std.Irrefl fun c d : Host.Cell => c.1 < d.1 := ⟨fun c => lt_irrefl c.1⟩
  have : Std.Antisymm fun c d : Host.Cell => c.1 < d.1 := ⟨fun _ _ h h' => absurd h' h.asymm⟩
  exact hm.1.eq_of_mem_iff hn.1 hmem

end Sys2Proof.Machine
end

section
/-! SUPPORT. O52: what reaches memory (20_memory.md R62). -/

namespace Sys2Proof.Machine

variable {i : Instr} {s t : State}

/-- An instruction outside R62's list keeps memory, and runs alike from any other memory. -/
theorem exec_setMem (hi : reachesMemory i = false) (h : exec i s = .next t) (m : Memory) :
    t.mem = s.mem ∧ exec i (s.setMem m) = .next (t.setMem m) := by
  cases i with
  | drw | ldBVx | ldMemVx | ldVxMem => cases hi
  | call nnn =>
    refine ⟨(exec_call_keeps h).2, ?_⟩
    obtain hsp | hsp := s.sp_lt_or_full
    · rw [exec_call_of_lt nnn s hsp] at h; cases h; exact exec_call_of_lt nnn (s.setMem m) hsp
    · rw [exec_call_full nnn s hsp] at h; cases h; exact exec_call_full nnn (s.setMem m) hsp
  | ret =>
    refine ⟨(exec_ret_keeps h).2, ?_⟩
    obtain hsp | hsp := s.sp.val.eq_zero_or_pos
    · rw [exec_ret_empty s hsp] at h; cases h; exact exec_ret_empty (s.setMem m) hsp
    · rw [exec_ret_of_pos s hsp] at h; cases h; exact exec_ret_of_pos (s.setMem m) hsp
  | _ => cases h; exact ⟨rfl, rfl⟩

/-- Settles O52: Dxyn and Fx65 write registers and the screen only. -/
theorem onlyFourInstructionsReachMemory : Obligations.OnlyFourInstructionsReachMemory := by
  intro i s t h
  refine ⟨fun hi => ⟨(exec_setMem hi h s.mem).1, fun m => (exec_setMem hi h m).2⟩, ?_⟩
  rintro (⟨x, y, n, rfl⟩ | ⟨x, rfl⟩)
  · cases h; rfl
  · obtain rfl := Host.Outcome.next.inj h; simp

end Sys2Proof.Machine
end

section
/-! SUPPORT. O56: what Fx33 and Fx55 store is what the next core step fetches (20_memory.md R66). -/

namespace Sys2Proof.Machine

variable {s t : State}

/-- The list names, address and byte, the stores of a run through I: byte j at I + j. -/
def ListsStores (s : State) (bs : List Byte) (stores : List (Nat × Byte)) : Prop :=
  ∀ p, p ∈ stores ↔ ∃ (j : Nat) (hj : j < bs.length), p = (dataAddr s.i j, bs[j])

/-- After a run of stores memory holds at each address the byte stored there, or the old one where none was. -/
theorem ListsStores.read_storeRun {bs : List Byte} {stores : List (Nat × Byte)} (hl : ListsStores s bs stores)
    (hm : s.mem.wf) (hlen : bs.length ≤ 4096) {a : Nat} {b : Byte} (hb : ByteAfterStores stores s a b) :
    (s.storeRun 0 bs).mem.read a = b := by
  obtain ⟨hstored, hold⟩ := hb
  by_cases ha : ∃ j < bs.length, a = dataAddr s.i j
  · obtain ⟨j, hj, rfl⟩ := ha
    rw [hstored _ ((hl _).mpr ⟨j, hj, rfl⟩) rfl]
    simpa using s.read_storeRun hm 0 bs (by omega) j hj
  · have hne : ∀ j < bs.length, a ≠ dataAddr s.i j := fun j hj e => ha ⟨j, hj, e⟩
    rw [hold fun p hp e => ?_]
    · exact s.read_storeRun_other hm 0 bs a (by simpa using hne)
    · obtain ⟨j, hj, rfl⟩ := (hl p).mp hp
      exact hne j hj e.symm

/-- The core step after a run of stores executes the word of the two bytes that the stores left at PC. -/
theorem ListsStores.coreStep_storeRun {bs : List Byte} {stores : List (Nat × Byte)} (hl : ListsStores s bs stores)
    (hm : s.mem.wf) (hlen : bs.length ≤ 4096) (ht : t.mem = (s.storeRun 0 bs).mem) (hpc : t.pc.toNat ≤ 0xFFE)
    {hi lo : Byte} (hhi : ByteAfterStores stores s t.pc.toNat hi) (hlo : ByteAfterStores stores s (t.pc.toNat + 1) lo) :
    coreStep t = exec (decodeWord (hi ++ lo)) t :=
  coreStep_of_bytes hpc (ht ▸ hl.read_storeRun hm hlen hhi) (ht ▸ hl.read_storeRun hm hlen hlo)

/-- Fx55 stores V0 to Vx (45_timer_memory.md R196). -/
theorem listsStores_regsUpTo (s : State) (x : Reg) :
    ListsStores s (s.regsUpTo x) (((List.finRange 16).filter (· ≤ x)).map fun k => (dataAddr s.i k.val, s.reg k)) := by
  intro p
  simp only [List.mem_map, List.mem_filter, List.mem_finRange, true_and, decide_eq_true_eq, State.regsUpTo_length]
  constructor
  · rintro ⟨k, hk, rfl⟩
    exact ⟨k.val, Nat.lt_succ_of_le hk, by rw [s.getElem_regsUpTo x k hk]⟩
  · rintro ⟨j, hj, rfl⟩
    have hx := x.isLt
    have hk : (⟨j, by omega⟩ : Reg) ≤ x := Nat.le_of_lt_succ hj
    exact ⟨⟨j, by omega⟩, hk, by rw [← s.getElem_regsUpTo x _ hk]⟩

/-- Fx33's bytes are the digits of the register's value (45_timer_memory.md R195). -/
theorem bcdDigits_eq {b hundreds tens ones : Byte} (hh : hundreds.toNat = b.toNat / 100)
    (ht : tens.toNat = b.toNat / 10 % 10) (ho : ones.toNat = b.toNat % 10) : bcdDigits b = [hundreds, tens, ones] := by
  simp [bcdDigits, ← hh, ← ht, ← ho]

theorem listsStores_three (s : State) (b₀ b₁ b₂ : Byte) :
    ListsStores s [b₀, b₁, b₂] [(dataAddr s.i 0, b₀), (dataAddr s.i 1, b₁), (dataAddr s.i 2, b₂)] := by
  intro p
  simp only [List.mem_cons, List.not_mem_nil, or_false, List.length_cons, List.length_nil]
  constructor
  · rintro (rfl | rfl | rfl)
    exacts [⟨0, by decide, rfl⟩, ⟨1, by decide, rfl⟩, ⟨2, by decide, rfl⟩]
  · rintro ⟨_ | _ | _ | j, hj, rfl⟩
    · simp
    · simp
    · simp
    · omega

/-- Settles O56: both instructions are a run of stores through I, followed by the advance of PC. -/
theorem storesAreSeenByTheNextFetch : Obligations.StoresAreSeenByTheNextFetch := by
  intro x s t hi lo hm _ hpc
  constructor
  · intro h hhi hlo
    rw [exec_ldMemVx] at h
    have hmem := congrArg State.mem (Host.Outcome.next.inj h).symm
    have hlen : (s.regsUpTo x).length ≤ 4096 := by rw [State.regsUpTo_length]; omega
    exact (listsStores_regsUpTo s x).coreStep_storeRun hm hlen hmem hpc hhi hlo
  · intro h hundreds tens ones hh ht ho hhi hlo
    rw [exec_ldBVx, bcdDigits_eq hh ht ho] at h
    have hmem := congrArg State.mem (Host.Outcome.next.inj h).symm
    exact (listsStores_three s hundreds tens ones).coreStep_storeRun hm (by simp) hmem hpc hhi hlo

end Sys2Proof.Machine
end

section
/-! SUPPORT. O3 to O7: what the rows of the opcode table read, decoding and encoding as inverses, and the Unknown set
(30_encoding.md R80 to R92). -/

namespace Sys2Proof

variable {w : Word} {i : Instr} {r q : OpcodeRow}

/-! ### A word is its fields (R81) -/

theorem wordN_fields (w : Word) : wordN (opField w) (nnnField w) = w := by
  apply BitVec.eq_of_toNat_eq
  rw [wordN_toNat, opField_toNat, nnnField_toNat]; omega

theorem wordXNN_fields (w : Word) : wordXNN (opField w) (xField w) (nnField w) = w := by
  apply BitVec.eq_of_toNat_eq
  rw [wordXNN_toNat, opField_toNat, xField_val, nnField_toNat]; omega

theorem wordXYN_fields (w : Word) : wordXYN (opField w) (xField w) (yField w) (nField w) = w := by
  apply BitVec.eq_of_toNat_eq
  rw [wordXYN_toNat, opField_toNat, xField_val, yField_val, nField_toNat]; omega

theorem wordN_eq {op : Nibble} {nnn : Addr12} (hop : opField w = op) (hnnn : nnnField w = nnn) : wordN op nnn = w :=
  hop ▸ hnnn ▸ wordN_fields w

theorem wordXNN_eq {op : Nibble} {nn : Byte} (hop : opField w = op) (hnn : nnField w = nn) :
    wordXNN op (xField w) nn = w :=
  hop ▸ hnn ▸ wordXNN_fields w

theorem wordXYN_eq {op n : Nibble} (hop : opField w = op) (hn : nField w = n) :
    wordXYN op (xField w) (yField w) n = w :=
  hop ▸ hn ▸ wordXYN_fields w

/-! ### The instruction a row reads encodes to the word it was read from, format by format (R83) -/

theorem rowMatches_iff : rowMatches w r = true ↔ opField w = r.op ∧ subMatches r.sub w = true := by
  simp [rowMatches]

theorem encodeWord_make_rowsFixed (hr : r ∈ rowsFixed) (hop : opField w = r.op) (hsub : subMatches r.sub w = true) :
    encodeWord (r.make w) = w := by
  simp only [rowsFixed, List.mem_cons, List.not_mem_nil, or_false] at hr
  obtain rfl | rfl := hr <;> exact wordN_eq hop (eq_of_beq hsub)

theorem encodeWord_make_rowsNnn (hr : r ∈ rowsNnn) (hop : opField w = r.op) : encodeWord (r.make w) = w := by
  revert r
  simp +contextual [rowsNnn, encodeWord, wordN_eq (w := w)]

theorem encodeWord_make_rowsXnn (hr : r ∈ rowsXnn) (hop : opField w = r.op) : encodeWord (r.make w) = w := by
  revert r
  simp +contextual [rowsXnn, encodeWord, wordXNN_eq]

theorem encodeWord_make_rowsXyn (hr : r ∈ rowsXyn) (hop : opField w = r.op) (hsub : subMatches r.sub w = true) :
    encodeWord (r.make w) = w := by
  revert r
  simp +contextual [rowsXyn, subMatches, encodeWord, wordXYN_eq]

theorem encodeWord_make_rowsX (hr : r ∈ rowsX) (hop : opField w = r.op) (hsub : subMatches r.sub w = true) :
    encodeWord (r.make w) = w := by
  revert r
  simp +contextual [rowsX, subMatches, encodeWord, wordXNN_eq]

theorem encodeWord_make_unknownRows (hr : r ∈ unknownRows) (w : Word) : encodeWord (r.make w) = w := by
  revert r
  simp [unknownRows, encodeWord]

theorem encodeWord_make (hr : r ∈ opcodeTable) (hm : rowMatches w r = true) : encodeWord (r.make w) = w := by
  obtain ⟨hop, hsub⟩ := rowMatches_iff.mp hm
  simp only [opcodeTable, instructionRows, List.mem_append] at hr
  rcases hr with ((((hr | hr) | hr) | hr) | hr) | hr
  · exact encodeWord_make_rowsFixed hr hop hsub
  · exact encodeWord_make_rowsNnn hr hop
  · exact encodeWord_make_rowsXnn hr hop
  · exact encodeWord_make_rowsXyn hr hop hsub
  · exact encodeWord_make_rowsX hr hop hsub
  · exact encodeWord_make_unknownRows hr w

/-! ### An instruction, its word and its row -/

theorem mnemonicOf_make (hr : r ∈ instructionRows) (w : Word) : Laws.mnemonicOf (r.make w) = r.mnemonic := by
  revert r
  simp [instructionRows, rowsFixed, rowsNnn, rowsXnn, rowsXyn, rowsX, Laws.mnemonicOf]

theorem wellFormed_make (hr : r ∈ instructionRows) (w : Word) : (r.make w).wellFormed = true := by
  revert r
  simp [instructionRows, rowsFixed, rowsNnn, rowsXnn, rowsXyn, rowsX, Instr.wellFormed]

theorem opcodeTable_mnemonics_nodup : (opcodeTable.map (·.mnemonic)).Nodup := by decide

theorem eq_of_mnemonic_eq (hr : r ∈ opcodeTable) (hq : q ∈ opcodeTable) (h : r.mnemonic = q.mnemonic) : r = q :=
  List.inj_on_of_nodup_map opcodeTable_mnemonics_nodup hr hq h

/-- The row of an instruction's mnemonic reads the instruction back from its word. -/
theorem exists_row_reading (i : Instr) :
    ∃ r ∈ opcodeTable, r.mnemonic = Laws.mnemonicOf i ∧ r.make (encodeWord i) = i := by
  obtain ⟨r, hr, hmake⟩ :
      ∃ r, opcodeTable.find? (·.mnemonic == Laws.mnemonicOf i) = some r ∧ r.make (encodeWord i) = i := by
    cases i <;> exact ⟨_, rfl, by simp [encodeWord]⟩
  exact ⟨r, List.mem_of_find?_eq_some hr, by simpa using List.find?_some hr, hmake⟩

/-- The word of a well-formed instruction selects that instruction's row (the lemmas of Laws/PerInstr.lean, together). -/
theorem Laws.RowOfWord.all : ∀ i, Laws.RowOfWord.Statement i
  | .cls => cls
  | .ret => ret
  | .jp nnn => jp nnn
  | .call nnn => call nnn
  | .seImm x nn => seImm x nn
  | .sneImm x nn => sneImm x nn
  | .seReg x y => seReg x y
  | .ldImm x nn => ldImm x nn
  | .addImm x nn => addImm x nn
  | .ldReg x y => ldReg x y
  | .orReg x y => orReg x y
  | .andReg x y => andReg x y
  | .xorReg x y => xorReg x y
  | .addReg x y => addReg x y
  | .sub x y => sub x y
  | .shr x y => shr x y
  | .subn x y => subn x y
  | .shl x y => shl x y
  | .sneReg x y => sneReg x y
  | .ldI nnn => ldI nnn
  | .jpV0 nnn => jpV0 nnn
  | .rnd x nn => rnd x nn
  | .drw x y n => drw x y n
  | .skp x => skp x
  | .sknp x => sknp x
  | .ldVxDt x => ldVxDt x
  | .ldVxK x => ldVxK x
  | .ldDtVx x => ldDtVx x
  | .ldStVx x => ldStVx x
  | .addIVx x => addIVx x
  | .ldFVx x => ldFVx x
  | .ldBVx x => ldBVx x
  | .ldMemVx x => ldMemVx x
  | .ldVxMem x => ldVxMem x
  | .unknown0 w => unknown0 w
  | .unknown5 w => unknown5 w
  | .unknown8 w => unknown8 w
  | .unknown9 w => unknown9 w
  | .unknownE w => unknownE w
  | .unknownF w => unknownF w

/-- Decoding inverts encoding on words: the row that the word selects is the one that reads the instruction back. -/
theorem decodeWord_encodeWord (hi : i.wellFormed = true) : decodeWord (encodeWord i) = i := by
  obtain ⟨r, hfind, hname⟩ := Option.map_eq_some_iff.mp (Laws.RowOfWord.all i hi)
  obtain ⟨q, hq, hqname, hmake⟩ := exists_row_reading i
  have hrq : r = q := eq_of_mnemonic_eq (List.mem_of_find?_eq_some hfind) hq (hname.trans hqname.symm)
  simp [decodeWord, hfind, hrq, hmake]

/-- Settles O4: two bytes decode as their word does, whatever follows them. -/
theorem decodeInvertsEncode : Obligations.DecodeInvertsEncode := by
  intro i rest hi
  rw [encode, decode_bytesOfWord, decodeWord_encodeWord hi]

/-- A word of an instruction's row decodes to what the row reads, since the row reads a well-formed instruction of that
word. -/
theorem decodeWord_of_rowMatches (hr : r ∈ instructionRows) (hm : rowMatches w r = true) : decodeWord w = r.make w := by
  have henc : encodeWord (r.make w) = w := encodeWord_make (List.mem_append_left _ hr) hm
  calc decodeWord w = decodeWord (encodeWord (r.make w)) := by rw [henc]
    _ = r.make w := decodeWord_encodeWord (wellFormed_make hr w)

/-- Settles O7: both rows' mnemonics are the mnemonic of the one instruction the word decodes to. -/
theorem instructionRowsDisjoint : Obligations.InstructionRowsDisjoint := by
  intro w r hr q hq hrm hqm
  rw [← mnemonicOf_make hr w, ← mnemonicOf_make hq w, ← decodeWord_of_rowMatches hr hrm,
    ← decodeWord_of_rowMatches hq hqm]

/-! ### The Unknown set (R86) -/

/-- Of an unknown row's words, those that no instruction's row matches are in R86's set: in each family, the sub-opcodes
its instruction rows fix are the ones the set leaves out. -/
theorem wellFormed_make_unknownRows (hr : r ∈ unknownRows) (hop : opField w = r.op)
    (hnone : ∀ q ∈ instructionRows, rowMatches w q = false) : (r.make w).wellFormed = true := by
  have hfamily : w.toNat / 4096 = r.op.toNat := by rw [← opField_toNat, hop]
  simp only [unknownRows, List.mem_cons, List.not_mem_nil, or_false] at hr
  simp [instructionRows, rowsFixed, rowsNnn, rowsXnn, rowsXyn, rowsX, rowMatches, subMatches] at hnone
  rcases hr with rfl | rfl | rfl | rfl | rfl | rfl
  all_goals
    simp [hop, ← BitVec.toNat_inj, nField_toNat, nnField_toNat, nnnField_toNat] at hnone
    simp [Instr.wellFormed, inUnknownSet] at hfamily ⊢
    omega

/-- What the decoder answers: the reading of an instruction's row, or of an unknown row when the word is of no
instruction's (R86). -/
theorem decodeWord_cases (w : Word) :
    (∃ r ∈ instructionRows, rowMatches w r = true ∧ decodeWord w = r.make w) ∨
    ((∀ q ∈ instructionRows, rowMatches w q = false) ∧
      ∃ r ∈ unknownRows, rowMatches w r = true ∧ decodeWord w = r.make w) := by
  by_cases h : ∃ r ∈ instructionRows, rowMatches w r = true
  · obtain ⟨r, hr, hm⟩ := h
    exact .inl ⟨r, hr, hm, decodeWord_of_rowMatches hr hm⟩
  · simp only [not_exists, not_and, Bool.not_eq_true] at h
    obtain ⟨r, hr, hm, hdec⟩ := decodeWord_eq_make w
    refine .inr ⟨h, r, (List.mem_append.mp hr).resolve_left fun hr' => ?_, hm, hdec⟩
    simp [h r hr'] at hm

theorem wellFormed_decodeWord (w : Word) : (decodeWord w).wellFormed = true := by
  obtain ⟨r, hr, hm, hdec⟩ | ⟨hnone, r, hr, hm, hdec⟩ := decodeWord_cases w
  · rw [hdec, wellFormed_make hr]
  · rw [hdec, wellFormed_make_unknownRows hr (rowMatches_iff.mp hm).1 hnone]

theorem encodeWord_decodeWord (w : Word) : encodeWord (decodeWord w) = w := by
  obtain ⟨r, hr, hm, hdec⟩ := decodeWord_eq_make w
  rw [hdec, encodeWord_make hr hm]

/-- Settles O5: the instruction is what a row of the table reads from the word. -/
theorem encodeInvertsDecode : Obligations.EncodeInvertsDecode :=
  fun w => ⟨wellFormed_decodeWord w, encodeWord_decodeWord w⟩

/-- R86's set in the words of `Obligations.UnknownSetIsExact`. -/
def SpecUnknown (w : Word) : Prop :=
  (w.toNat / 0x1000 = 0x0 ∧ w ≠ 0x00E0 ∧ w ≠ 0x00EE) ∨
  ((w.toNat / 0x1000 = 0x5 ∨ w.toNat / 0x1000 = 0x9) ∧ w.toNat % 0x10 ≠ 0) ∨
  (w.toNat / 0x1000 = 0x8 ∧ w.toNat % 0x10 ∈ [0x8, 0x9, 0xA, 0xB, 0xC, 0xD, 0xF]) ∨
  (w.toNat / 0x1000 = 0xE ∧ w.toNat % 0x100 ∉ [0x9E, 0xA1]) ∨
  (w.toNat / 0x1000 = 0xF ∧ w.toNat % 0x100 ∉ [0x07, 0x0A, 0x15, 0x18, 0x1E, 0x29, 0x33, 0x55, 0x65])

/-- A word of the set has a well-formed Unknown descriptor. -/
theorem SpecUnknown.exists_descriptor (h : SpecUnknown w) :
    ∃ i : Instr, i.wellFormed = true ∧ encodeWord i = w ∧ i.unknownWord? = some w := by
  rcases h with ⟨hop, hcls, hret⟩ | ⟨hop | hop, hn⟩ | ⟨hop, hn⟩ | ⟨hop, hnn⟩ | ⟨hop, hnn⟩
  · refine ⟨.unknown0 w, ?_, rfl, rfl⟩
    simp_all [Instr.wellFormed, inUnknownSet, ← BitVec.toNat_inj]
  · exact ⟨.unknown5 w, by simp [Instr.wellFormed, inUnknownSet, hop, hn], rfl, rfl⟩
  · exact ⟨.unknown9 w, by simp [Instr.wellFormed, inUnknownSet, hop, hn], rfl, rfl⟩
  · exact ⟨.unknown8 w, by simpa [Instr.wellFormed, inUnknownSet, hop] using hn, rfl, rfl⟩
  · exact ⟨.unknownE w, by simpa [Instr.wellFormed, inUnknownSet, hop] using hnn, rfl, rfl⟩
  · exact ⟨.unknownF w, by simpa [Instr.wellFormed, inUnknownSet, hop] using hnn, rfl, rfl⟩

/-- A well-formed Unknown descriptor carries a word of the set. -/
theorem SpecUnknown.of_descriptor (hi : i.wellFormed = true) (hw : i.unknownWord? = some w) : SpecUnknown w := by
  cases i with
  | unknown0 | unknown5 | unknown8 | unknown9 | unknownE | unknownF =>
    cases hw
    simp [Instr.wellFormed, inUnknownSet] at hi
    simp [SpecUnknown, ← BitVec.toNat_inj, hi]
  | _ => cases hw

/-- A descriptor carries the word it encodes to. -/
theorem encodeWord_of_unknownWord? (hw : i.unknownWord? = some w) : encodeWord i = w := by
  cases i with
  | unknown0 | unknown5 | unknown8 | unknown9 | unknownE | unknownF => exact Option.some.inj hw
  | _ => cases hw

/-- Settles O6: the descriptors of the set's words are well formed, and every decoded instruction is, so both directions
follow from decoding and encoding being inverses. -/
theorem unknownSetIsExact : Obligations.UnknownSetIsExact := by
  intro w
  change (SpecUnknown w → _) ∧ (¬ SpecUnknown w → _)
  constructor
  · intro h
    obtain ⟨i, hi, henc, hw⟩ := h.exists_descriptor
    rw [← henc, decodeWord_encodeWord hi, hw, henc]
  · intro h
    refine Option.eq_none_iff_forall_ne_some.mpr fun v hv => h ?_
    have hwv : w = v := (encodeWord_decodeWord w).symm.trans (encodeWord_of_unknownWord? hv)
    exact .of_descriptor (wellFormed_decodeWord w) (hwv ▸ hv)

/-- Settles O3: the table, evaluated at the seventeen words. -/
theorem specWordsDecode : Obligations.SpecWordsDecode := by
  unfold Obligations.SpecWordsDecode
  decide

end Sys2Proof
end

section
/-! SUPPORT. O12 to O17: jumps, calls, returns, skips and the advance of PC (40_control_flow.md R100 to R109). -/

namespace Sys2Proof.Machine

variable {i : Instr} {s t : State} {es : List Element}

/-! ### The frame of the control-flow operations -/

theorem ChangesOnly.refl (es : List Element) (s : State) : ChangesOnly es s s := by
  intro e _
  cases e <;> simp [Unchanged]

theorem ChangesOnly.setPc (h : ChangesOnly es s t) (hpc : .pc ∈ es) (a : Word) : ChangesOnly es s (t.setPc a) := by
  intro e he
  cases e with
  | pc => exact absurd hpc he
  | _ => exact h _ he

/-- STACK and SP are set together; each is in the frame when it is set to what it was. -/
theorem ChangesOnly.setStack (h : ChangesOnly es s t) {k : Vector Word 16} {p : Fin 17}
    (hk : .stack ∈ es ∨ k = t.stack) (hp : .sp ∈ es ∨ p = t.sp) : ChangesOnly es s (t.setStack k p) := by
  intro e he
  cases e with
  | stack => exact hk.resolve_left he ▸ h _ he
  | sp => exact (hp.resolve_left he).trans (h _ he)
  | _ => exact h _ he

/-! ### Return and call -/

/-- A RET right after a CALL that pushed pops the pushed address; the address stays in its slot. -/
theorem exec_ret_after_call (nnn : Addr12) (s : State) (h : s.sp.val < 16) :
    ∃ t, exec (.call nnn) s = .next t ∧
      exec .ret t = .next ((s.setStack (s.stack.set s.sp.val (s.pc + 2) h) s.sp).setPc (s.pc + 2)) := by
  refine ⟨_, exec_call_of_lt nnn s h, ?_⟩
  rw [exec_ret_of_pos _ (by simp)]
  simp [State.setStack, State.setPc]

/-- Settles O15: after the return only PC and the slot the call pushed may differ. -/
theorem callThenRetReturns : Obligations.CallThenRetReturns := by
  intro nnn s h
  obtain ⟨t, hcall, hret⟩ := exec_ret_after_call nnn s h
  refine ⟨t, _, hcall, hret, rfl, ?_, fun k hk => by simp [hk.symm]⟩
  exact ((ChangesOnly.refl _ s).setStack (.inl (by simp)) (.inr rfl)).setPc (by simp) _

/-- Settles O13: there is room to push, or the stack is full. -/
theorem callPushesOrOverflows : Obligations.CallPushesOrOverflows := by
  refine fun nnn => ⟨decodeWord_encodeWord (i := .call nnn) rfl, fun s => ⟨fun h => ?_, exec_call_full nnn s⟩⟩
  refine ⟨_, exec_call_of_lt nnn s h, by simp, fun k hk => by simp [hk.symm], rfl, zext16_toNat (by decide) nnn, ?_⟩
  exact ((ChangesOnly.refl _ s).setStack (.inl (by simp)) (.inl (by simp))).setPc (by simp) _

/-- Settles O14: an address is held, or the stack is empty. -/
theorem retPopsOrUnderflows : Obligations.RetPopsOrUnderflows := by
  refine ⟨decodeWord_encodeWord (i := .ret) rfl, fun s => ⟨fun h => ?_, exec_ret_empty s⟩⟩
  exact ⟨_, exec_ret_of_pos s h, Nat.sub_add_cancel h, rfl,
    ((ChangesOnly.refl _ s).setStack (.inr rfl) (.inl (by simp))).setPc (by simp) _⟩

/-! ### Jumps, skips and the advance -/

/-- Settles O12: PC takes the zero-extended constant. -/
theorem jpSetsPc : Obligations.JpSetsPc :=
  fun nnn => ⟨decodeWord_encodeWord (i := .jp nnn) rfl, fun s =>
    ⟨_, rfl, zext16_toNat (by decide) nnn, (ChangesOnly.refl _ s).setPc (by simp) _⟩⟩

/-- What a skip on a condition does (R109), said of any two propositions that decide the condition. -/
theorem exec_skip {c : Bool} {taken untaken : Prop} (hi : exec i s = .next (s.skipIf c)) (htaken : taken → c = true)
    (huntaken : untaken → c = false) :
    ∃ t, exec i s = .next t ∧ ChangesOnly [.pc] s t ∧
      (taken → t.pc = s.pc + 4) ∧ (untaken → t.pc = s.pc + 2) :=
  ⟨_, hi, (ChangesOnly.refl _ s).setPc (by simp) _, fun h => by simp [htaken h], fun h => by simp [huntaken h]⟩

/-- Settles O16: the four conditions are `==` and `!=` of a register with an immediate or with a register. -/
theorem registerSkipsMoveFourOrTwo : Obligations.RegisterSkipsMoveFourOrTwo := fun x y nn =>
  ⟨decodeWord_encodeWord (i := .seImm x nn) rfl, decodeWord_encodeWord (i := .sneImm x nn) rfl,
    decodeWord_encodeWord (i := .seReg x y) rfl, decodeWord_encodeWord (i := .sneReg x y) rfl, fun _ =>
    ⟨exec_skip rfl beq_iff_eq.mpr beq_false_of_ne, exec_skip rfl bne_iff_ne.mpr bne_eq_false_iff_eq.mpr,
      exec_skip rfl beq_iff_eq.mpr beq_false_of_ne, exec_skip rfl bne_iff_ne.mpr bne_eq_false_iff_eq.mpr⟩⟩

/-- Settles O17: every instruction answers a next state, and those outside R100's list advance to it. -/
theorem otherInstructionsAdvanceByTwo : Obligations.OtherInstructionsAdvanceByTwo := by
  intro i s hi
  obtain ⟨t, ht⟩ := exec_answers_next i s
  exact ⟨t, ht, exec_advances hi ht⟩

end Sys2Proof.Machine
end

section
/-! SUPPORT. O18 to O25: register load, arithmetic and logic (41_register_alu.md R121 to R131). -/

namespace Sys2Proof.Machine

variable {i : Instr} {s t : State} {es : List Element} {x y : Reg} {b f v : Byte}

/-! ### The frame of the register writes -/

theorem ChangesOnly.setReg (h : ChangesOnly es s t) (hv : .v ∈ es) (x : Reg) (b : Byte) :
    ChangesOnly es s (t.setReg x b) := by
  intro e he
  cases e with
  | v => exact absurd hv he
  | _ => exact h _ he

/-- What an instruction that writes one register and no flag does, said of any property of the byte it writes. -/
theorem exec_writes_reg (P : Byte → Prop) (hi : exec i s = .next (s.setReg x b).advance) (hb : P b) :
    ∃ t, exec i s = .next t ∧ P (t.reg x) ∧ t.pc = s.pc + 2 ∧ SameRegsExcept [x] s t ∧ ChangesOnly [.v, .pc] s t :=
  ⟨_, hi, by simpa using hb, rfl, (sameRegsExcept_setReg s x b).advance,
    ((ChangesOnly.refl _ s).setReg (by simp) x b).setPc (by simp) _⟩

/-- What an instruction that writes a result and then a flag does, said of any property of the result: with x = F the flag
stands over the result (00_scope.md R13). -/
theorem exec_writes_result_flag (P : Byte → Prop) {n : Nat} (hi : exec i s = .next (s.setResultFlag x b f).advance)
    (hb : P b) (hf : f.toNat = n) :
    ∃ t, exec i s = .next t ∧ (x ≠ VF → P (t.reg x)) ∧ (t.reg VF).toNat = n ∧ t.pc = s.pc + 2 ∧
      SameRegsExcept [x, VF] s t ∧ ChangesOnly [.v, .pc] s t :=
  ⟨_, hi, fun hx => by simpa [State.reg_setResultFlag, hx] using hb, by simpa using hf, rfl,
    (sameRegsExcept_setResultFlag s x b f).advance,
    (((ChangesOnly.refl _ s).setReg (by simp) x b).setReg (by simp) VF f).setPc (by simp) _⟩

/-! ### Loads, the immediate sum and logic -/

/-- Settles O18: the byte written is the immediate, or the old Vy. -/
theorem loadsWriteTheRegister : Obligations.LoadsWriteTheRegister := fun x y nn =>
  ⟨decodeWord_encodeWord (i := .ldImm x nn) rfl, decodeWord_encodeWord (i := .ldReg x y) rfl, fun s =>
    ⟨exec_writes_reg (· = nn) rfl rfl, exec_writes_reg (· = s.reg y) rfl rfl⟩⟩

/-- Settles O19: addition of bytes is addition modulo 256. -/
theorem addImmediateWrapsWithoutFlag : Obligations.AddImmediateWrapsWithoutFlag := fun x nn =>
  ⟨decodeWord_encodeWord (i := .addImm x nn) rfl, fun s =>
    exec_writes_reg (·.toNat = ((s.reg x).toNat + nn.toNat) % 256) rfl (BitVec.toNat_add _ _)⟩

/-- Settles O20: the operations on bytes are those on their bits. -/
theorem logicWritesNoFlag : Obligations.LogicWritesNoFlag := fun x y =>
  ⟨decodeWord_encodeWord (i := .orReg x y) rfl, decodeWord_encodeWord (i := .andReg x y) rfl,
    decodeWord_encodeWord (i := .xorReg x y) rfl, fun s =>
    ⟨exec_writes_reg (fun r => ∀ k < 8, r.getLsbD k = ((s.reg x).getLsbD k || (s.reg y).getLsbD k)) rfl
        fun _ _ => BitVec.getLsbD_or,
      exec_writes_reg (fun r => ∀ k < 8, r.getLsbD k = ((s.reg x).getLsbD k && (s.reg y).getLsbD k)) rfl
        fun _ _ => BitVec.getLsbD_and,
      exec_writes_reg (fun r => ∀ k < 8, r.getLsbD k = ((s.reg x).getLsbD k ^^ (s.reg y).getLsbD k)) rfl
        fun _ _ => BitVec.getLsbD_xor⟩⟩

/-! ### The sum and the differences with a flag -/

/-- Settles O21: the sum modulo 256, and the carry of the unbounded sum. -/
theorem addSetsCarry : Obligations.AddSetsCarry := fun x y =>
  ⟨decodeWord_encodeWord (i := .addReg x y) rfl, fun s =>
    exec_writes_result_flag (·.toNat = ((s.reg x).toNat + (s.reg y).toNat) % 256) rfl
      (BitVec.toNat_add _ _) (carryFlag_toNat _ _)⟩

/-- Subtraction of bytes is the integer difference modulo 256. -/
theorem toNat_sub_emod (a b : Byte) : ((a - b).toNat : Int) = ((a.toNat : Int) - b.toNat) % 256 := by
  have hb := b.isLt
  rw [BitVec.toNat_sub]
  omega

/-- Settles O22: the difference Vx - Vy, with Vx the minuend of the flag. -/
theorem subSetsNoBorrow : Obligations.SubSetsNoBorrow := fun x y =>
  ⟨decodeWord_encodeWord (i := .sub x y) rfl, fun s =>
    exec_writes_result_flag (fun r => (r.toNat : Int) = (((s.reg x).toNat : Int) - (s.reg y).toNat) % 256) rfl
      (toNat_sub_emod _ _) (noBorrowFlag_toNat _ _)⟩

/-- Settles O23: the difference Vy - Vx, with Vy the minuend of the flag. -/
theorem subnSetsNoBorrow : Obligations.SubnSetsNoBorrow := fun x y =>
  ⟨decodeWord_encodeWord (i := .subn x y) rfl, fun s =>
    exec_writes_result_flag (fun r => (r.toNat : Int) = (((s.reg y).toNat : Int) - (s.reg x).toNat) % 256) rfl
      (toNat_sub_emod _ _) (noBorrowFlag_toNat _ _)⟩

/-! ### The shifts -/

/-- The operand of a shift, by the two values of SHIFT_SOURCE. -/
theorem State.shiftOperand_eq (hvx : s.env.shiftSource = .vx → v = s.reg x) (hvy : s.env.shiftSource = .vy → v = s.reg y) :
    s.shiftOperand x y = v := by
  cases hs : s.env.shiftSource with
  | vx => simp [State.shiftOperand, hs, hvx hs]
  | vy => simp [State.shiftOperand, hs, hvy hs]

theorem toNat_ushiftRight_one (b : Byte) : (b >>> 1).toNat = b.toNat / 2 := by
  rw [BitVec.toNat_ushiftRight, Nat.shiftRight_eq_div_pow, pow_one]

theorem toNat_shiftLeft_one (b : Byte) : (b <<< 1).toNat = b.toNat * 2 % 256 := by
  rw [BitVec.toNat_shiftLeft, Nat.shiftLeft_eq, pow_one]

/-- Settles O24: half of the operand, and its bit 0. -/
theorem shrShiftsOutBitZero : Obligations.ShrShiftsOutBitZero := by
  refine fun x y => ⟨decodeWord_encodeWord (i := .shr x y) rfl, fun s v hvx hvy => ?_⟩
  obtain rfl := State.shiftOperand_eq hvx hvy
  exact exec_writes_result_flag (·.toNat = (s.shiftOperand x y).toNat / 2) rfl
    (toNat_ushiftRight_one _) (shrFlag_toNat _)

/-- Settles O25: twice the operand modulo 256, and its bit 7. -/
theorem shlShiftsOutBitSeven : Obligations.ShlShiftsOutBitSeven := by
  refine fun x y => ⟨decodeWord_encodeWord (i := .shl x y) rfl, fun s v hvx hvy => ?_⟩
  obtain rfl := State.shiftOperand_eq hvx hvy
  exact exec_writes_result_flag (·.toNat = (s.shiftOperand x y).toNat * 2 % 256) rfl
    (toNat_shiftLeft_one _) (shlFlag_toNat _)

end Sys2Proof.Machine
end

section
/-! SUPPORT. O27 to O29: the index constant, the computed jump and the random byte (42_addressing_random.md R150 to R153). -/

namespace Sys2Proof.Machine

variable {s t : State} {es : List Element}

/-! ### The frame of the index write and of the draw -/

theorem ChangesOnly.setI (h : ChangesOnly es s t) (hi : .i ∈ es) (a : Word) : ChangesOnly es s (t.setI a) := by
  intro e he
  cases e with
  | i => exact absurd hi he
  | _ => exact h _ he

theorem ChangesOnly.countDraw (h : ChangesOnly es s t) (hd : .draws ∈ es) : ChangesOnly es s t.countDraw := by
  intro e he
  cases e with
  | draws => exact absurd hd he
  | _ => exact h _ he

/-! ### Index constant and computed jump -/

/-- Settles O27: I takes the zero-extended constant. -/
theorem ldISetsIndex : Obligations.LdISetsIndex :=
  fun nnn => ⟨decodeWord_encodeWord (i := .ldI nnn) rfl, fun s =>
    ⟨_, rfl, zext16_toNat (by decide) nnn, rfl, ((ChangesOnly.refl _ s).setI (by simp) _).setPc (by simp) _⟩⟩

/-- A byte and a 12-bit constant sum below 2^16, so the 16-bit sum does not wrap. -/
theorem zext16_add_toNat (b : Byte) (nnn : Addr12) : (zext16 b + zext16 nnn).toNat = b.toNat + nnn.toNat := by
  rw [BitVec.toNat_add, zext16_toNat (by decide) b, zext16_toNat (by decide) nnn]
  omega

/-- Settles O28: the largest target is 0xFF + 0xFFF. -/
theorem jpV0AddsV0 : Obligations.JpV0AddsV0 := by
  refine fun nnn => ⟨decodeWord_encodeWord (i := .jpV0 nnn) rfl, fun s => ?_⟩
  have hsum := zext16_add_toNat (s.reg 0) nnn
  exact ⟨_, rfl, hsum, hsum.trans_le (by omega), (ChangesOnly.refl _ s).setPc (by simp) _⟩

/-! ### The random byte -/

/-- R153 for whatever byte is drawn: the register takes it under the mask, and the draw is counted. -/
theorem rndWithDraw_spec (draw : Byte) (x : Reg) (nn : Byte) (s : State) :
    (rndWithDraw draw x nn s).reg x = draw &&& nn ∧ SameRegsExcept [x] s (rndWithDraw draw x nn s) ∧
      ChangesOnly [.v, .pc, .draws] s (rndWithDraw draw x nn s) :=
  ⟨s.reg_setReg_same x _, sameRegsExcept_setReg s x _,
    (((ChangesOnly.refl _ s).setReg (by simp) x _).countDraw (by simp)).setPc (by simp) _⟩

/-- Settles O29: the draw is the oracle's byte at the counter, and nothing about that byte is used. -/
theorem rndMasksTheDraw : Obligations.RndMasksTheDraw := by
  refine fun x nn => ⟨decodeWord_encodeWord (i := .rnd x nn) rfl, fun s => ?_⟩
  obtain ⟨hreg, hregs, hframe⟩ := rndWithDraw_spec s.nextDraw x nn s
  refine ⟨_, rfl, fun k _ => ?_, ?_, rfl, rfl, hregs, hframe⟩
  · rw [hreg]
    exact BitVec.getLsbD_and
  · rw [hreg, BitVec.and_assoc, BitVec.and_not_self]
    exact BitVec.and_zero

end Sys2Proof.Machine
end

section
/-! SUPPORT. O30 to O32: clear and sprite draw (43_display.md R161 to R165). -/

namespace Sys2Proof.Machine

variable {s t : State} {es : List Element} {x y : Reg} {n : Nibble}

/-! ### The frame of the framebuffer and of DIRTY -/

theorem ChangesOnly.setFb (h : ChangesOnly es s t) (hfb : .fb ∈ es) (fb : Framebuffer) :
    ChangesOnly es s (t.setFb fb) := by
  intro e he
  cases e with
  | fb => exact absurd hfb he
  | _ => exact h _ he

theorem ChangesOnly.setDirty (h : ChangesOnly es s t) (hd : .dirty ∈ es) (d : Bool) :
    ChangesOnly es s (t.setDirty d) := by
  intro e he
  cases e with
  | dirty => exact absurd hd he
  | _ => exact h _ he

/-! ### Clear -/

/-- Settles O30: the framebuffer becomes the blank screen, whatever stood on it. -/
theorem clsClearsAndMarksDirty : Obligations.ClsClearsAndMarksDirty :=
  ⟨decodeWord_encodeWord (i := .cls) rfl, fun s => ⟨_, rfl, blankScreen_pixel, rfl, rfl,
    (((ChangesOnly.refl _ s).setFb (by simp) _).setDirty (by simp) _).setPc (by simp) _⟩⟩

/-! ### The pixels that a sprite covers -/

/-- The pixels that the blitter lists are those that the spec's sprite covers (R162, R163). -/
theorem mem_spritePixels_iff_spriteCovers {px : Fin 64} {py : Fin 32} :
    (px, py) ∈ s.spritePixels x y n ↔ SpriteCovers s x y n px py := by
  simp only [mem_spritePixels, SpriteCovers, State.readI, Prod.mk.injEq, Fin.ext_iff, columnOf_val, rowOf_val]

/-- A sprite covers some pixel exactly when some row of it has a 1 bit: wrapping loses no bit. -/
theorem exists_spriteCovers_iff (s : State) (x y : Reg) (n : Nibble) : (∃ px py, SpriteCovers s x y n px py) ↔
    ∃ r < n.toNat, ∃ b < 8, (s.mem.read (dataAddr s.i r)).getLsbD b = true := by
  constructor
  · rintro ⟨px, py, r, c, hr, hc, hbit, -, -⟩
    exact ⟨r, hr, 7 - c, by omega, hbit⟩
  · rintro ⟨r, hr, b, hb, hbit⟩
    refine ⟨columnOf (s.reg x) (7 - b), rowOf (s.reg y) r, r, 7 - b, hr, by omega, ?_, rfl, rfl⟩
    rwa [Nat.sub_sub_self (by omega)]

/-! ### One draw -/

/-- The screen after a draw: within one draw no pixel is toggled twice, so each covered one is toggled once. -/
theorem exec_drw_pixel (h : exec (.drw x y n) s = .next t) (px : Fin 64) (py : Fin 32) :
    t.fb.pixel px py = (s.fb.pixel px py ^^ decide ((px, py) ∈ s.spritePixels x y n)) := by
  cases h
  exact plot_pixel s.fb _ (nodup_spritePixels s x y n) px py

theorem exec_drw_pixel_of_spriteCovers (h : exec (.drw x y n) s = .next t) {px : Fin 64} {py : Fin 32}
    (hc : SpriteCovers s x y n px py) : t.fb.pixel px py = !s.fb.pixel px py := by
  simp [exec_drw_pixel h, mem_spritePixels_iff_spriteCovers, hc]

theorem exec_drw_pixel_of_not_spriteCovers (h : exec (.drw x y n) s = .next t) {px : Fin 64} {py : Fin 32}
    (hc : ¬ SpriteCovers s x y n px py) : t.fb.pixel px py = s.fb.pixel px py := by
  simp [exec_drw_pixel h, mem_spritePixels_iff_spriteCovers, hc]

/-- VF after a draw: 1 exactly on a collision. -/
theorem exec_drw_flag_eq_one_iff (h : exec (.drw x y n) s = .next t) :
    t.reg VF = 1 ↔ ∃ px py, SpriteCovers s x y n px py ∧ s.fb.pixel px py = true := by
  have hVF : t.reg VF = boolByte (plot s.fb (s.spritePixels x y n)).2 := by
    cases h
    exact State.reg_setReg_same _ _ _
  rw [hVF, boolByte_eq_one, plot_collision _ _ (nodup_spritePixels s x y n)]
  simp [mem_spritePixels_iff_spriteCovers]

theorem exec_drw_changesOnly (h : exec (.drw x y n) s = .next t) : ChangesOnly [.v, .fb, .dirty, .pc] s t := by
  cases h
  exact ((((ChangesOnly.refl _ s).setFb (by simp) _).setReg (by simp) VF _).setDirty (by simp) _).setPc (by simp) _

/-- Settles O31: the covered pixels are toggled, and VF, which is 0 or 1, tells of a collision. -/
theorem drwXorsTheSprite : Obligations.DrwXorsTheSprite := by
  refine fun x y n => ⟨decodeWord_encodeWord (i := .drw x y n) rfl, fun s => ?_⟩
  obtain ⟨t, h⟩ := exec_answers_next (.drw x y n) s
  have hVF := exec_drw_flag_eq_one_iff h
  have hdirty : t.dirty = true := by cases h; rfl
  exact ⟨t, h, fun px py => ⟨exec_drw_pixel_of_spriteCovers h, exec_drw_pixel_of_not_spriteCovers h⟩, hVF.mpr,
    fun hno => (exec_flag_zero_or_one rfl h).resolve_right (mt hVF.mp hno), hdirty, exec_advances rfl h,
    exec_sameRegsExcept h, exec_drw_changesOnly h⟩

/-! ### The same draw twice -/

/-- A draw writes nothing that it reads but the screen, so long as neither of its registers is VF. -/
theorem exec_drw_keeps_spritePixels (hx : x ≠ VF) (hy : y ≠ VF) (h : exec (.drw x y n) s = .next t) :
    t.spritePixels x y n = s.spritePixels x y n := by
  have hreg : ∀ r, r ≠ VF → t.reg r = s.reg r := fun r hr => exec_sameRegsExcept h r (by simpa [writtenRegs] using hr)
  have hread : ∀ r, t.readI r = s.readI r := by cases h; exact fun _ => rfl
  simp only [State.spritePixels, hread, hreg x hx, hreg y hy]

/-- Settles O32: both draws cover the same pixels, so the second toggles each back, and finds lit the ones that the first
found unlit. -/
theorem drwTwiceRestoresTheScreen : Obligations.DrwTwiceRestoresTheScreen := by
  intro x y n s t u hx hy hst htu
  have hps := exec_drw_keeps_spritePixels hx hy hst
  have hcovers : ∀ px py, SpriteCovers t x y n px py ↔ SpriteCovers s x y n px py := fun px py => by
    rw [← mem_spritePixels_iff_spriteCovers, hps, mem_spritePixels_iff_spriteCovers]
  have hVF : u.reg VF = 1 ↔ ∃ px py, SpriteCovers s x y n px py ∧ s.fb.pixel px py = false := by
    rw [exec_drw_flag_eq_one_iff htu]
    refine exists_congr fun px => exists_congr fun py => ?_
    rw [hcovers]
    exact and_congr_right fun hc => by simp [exec_drw_pixel_of_spriteCovers hst hc]
  refine ⟨fun px py => ?_, hVF, fun hclear => ?_⟩
  · rw [exec_drw_pixel htu, exec_drw_pixel hst, hps, Bool.xor_assoc, Bool.xor_self, Bool.xor_false]
  · rw [hVF, ← exists_spriteCovers_iff s x y n]
    simp only [hclear, and_true]

end Sys2Proof.Machine
end

section
/-! SUPPORT. O33 and O34: the skips on a key and the start of the key wait (44_input.md R180 to R183). -/

namespace Sys2Proof.Machine

variable {s t : State} {es : List Element} {x k : Reg}

/-! ### The frame of RUN -/

theorem ChangesOnly.setRun (h : ChangesOnly es s t) (hr : .run ∈ es) (r : RunState) : ChangesOnly es s (t.setRun r) := by
  intro e he
  cases e with
  | run => exact absurd hr he
  | _ => exact h _ he

/-! ### The skips on a key -/

/-- The key that a register names (R180) is the one whose number is the low nibble of the register's byte. -/
theorem State.keyPressed_eq_getElem (hk : k.val = (s.reg x).toNat % 16) : s.keyPressed x = s.keys[k] := by
  obtain rfl : k = lowNibble (s.reg x) := Fin.ext (hk.trans (lowNibble_val _).symm)
  rfl

/-- Settles O33: the two conditions are the state of the key that Vx names and its negation. -/
theorem keySkipsMoveFourOrTwo : Obligations.KeySkipsMoveFourOrTwo := by
  refine fun x => ⟨decodeWord_encodeWord (i := .skp x) rfl, decodeWord_encodeWord (i := .sknp x) rfl, fun s k hk => ?_⟩
  have hkey := State.keyPressed_eq_getElem hk
  exact ⟨exec_skip rfl hkey.trans hkey.trans,
    exec_skip rfl (fun hup => by rw [hkey, hup, Bool.not_false]) (fun hdown => by rw [hkey, hdown, Bool.not_true])⟩

/-! ### The key wait -/

/-- Settles O34: the wait begins from every state, and no key is read. -/
theorem keyWaitSuspendsTheCore : Obligations.KeyWaitSuspendsTheCore :=
  fun x => ⟨decodeWord_encodeWord (i := .ldVxK x) rfl, fun s =>
    ⟨_, rfl, rfl, rfl, (ChangesOnly.refl _ s).setRun (by simp) _⟩⟩

end Sys2Proof.Machine
end

section
/-! SUPPORT. O36 to O42: timers, index arithmetic, glyph addresses, decimal digits and bulk memory (45_timer_memory.md R190
to R197). -/

namespace Sys2Proof.Machine

variable {i : Instr} {s t : State} {es : List Element}

/-! ### The frame of the timers, of memory and of the bulk load -/

theorem ChangesOnly.setDt (h : ChangesOnly es s t) (hd : .dt ∈ es) (b : Byte) : ChangesOnly es s (t.setDt b) := by
  intro e he
  cases e with
  | dt => exact absurd hd he
  | _ => exact h _ he

theorem ChangesOnly.setSt (h : ChangesOnly es s t) (hst : .st ∈ es) (b : Byte) : ChangesOnly es s (t.setSt b) := by
  intro e he
  cases e with
  | st => exact absurd hst he
  | _ => exact h _ he

theorem ChangesOnly.setMem (h : ChangesOnly es s t) (hm : .mem ∈ es) (m : Memory) : ChangesOnly es s (t.setMem m) := by
  intro e he
  cases e with
  | mem => exact absurd hm he
  | _ => exact h _ he

theorem ChangesOnly.loadRegs (h : ChangesOnly es s t) (hv : .v ∈ es) (x : Reg) : ChangesOnly es s (t.loadRegs x) := by
  intro e he
  cases e with
  | v => exact absurd hv he
  | _ => simpa [Unchanged] using h _ he

/-! ### A run of stores at I -/

/-- Membership in the byte frame of a run of `n` stores: the data addresses at the first `n` offsets from I. -/
theorem mem_dataAddrs {a n : Nat} {w : Word} : a ∈ (List.range n).map (dataAddr w) ↔ ∃ j < n, a = dataAddr w j := by
  simp [eq_comm]

/-- What an instruction that stores a run of bytes from I on does, in a canonical memory: byte j stands at I + j, and
nothing else changes but PC. -/
theorem exec_stores {bs : List Byte} (hm : s.mem.wf) (hlen : bs.length ≤ 4096)
    (hi : exec i s = .next (s.setMem (s.storeRun 0 bs).mem).advance) :
    ∃ t, exec i s = .next t ∧ (∀ (j : Nat) (b : Byte), bs[j]? = some b → t.mem.read (dataAddr s.i j) = b) ∧
      t.pc = s.pc + 2 ∧ SameBytesExcept ((List.range bs.length).map (dataAddr s.i)) s t ∧ ChangesOnly [.mem, .pc] s t := by
  refine ⟨_, hi, fun j b hb => ?_, rfl, fun a ha => ?_,
    ((ChangesOnly.refl _ s).setMem (by simp) _).setPc (by simp) _⟩
  · obtain ⟨hj, rfl⟩ := List.getElem?_eq_some_iff.mp hb
    simpa using s.read_storeRun hm 0 bs (by omega) j hj
  · refine s.read_storeRun_other hm 0 bs a fun j hj e => ha (mem_dataAddrs.mpr ⟨j, hj, ?_⟩)
    rwa [Nat.zero_add] at e

/-- Settles O40: the run of stores is the list of the registers V0 to Vx. -/
theorem storeWritesRegistersInOrder : Obligations.StoreWritesRegistersInOrder := by
  refine fun x => ⟨decodeWord_encodeWord (i := .ldMemVx x) rfl, fun s hm => ?_⟩
  have hlen := s.regsUpTo_length x
  obtain ⟨t, ht, hread, hpc, hbytes, hframe⟩ := exec_stores hm (by omega) (exec_ldMemVx x s)
  rw [hlen] at hbytes
  refine ⟨t, ht, fun k hk => hread k.val _ ?_, hpc, hbytes, hframe⟩
  exact List.getElem?_eq_some_iff.mpr ⟨_, s.getElem_regsUpTo x k hk⟩

/-- Fx33's bytes are the three decimal digits: each digit fits a byte, so none is cut. -/
theorem exists_bcdDigits_eq (b : Byte) : ∃ hundreds tens ones : Byte, bcdDigits b = [hundreds, tens, ones] ∧
    hundreds.toNat = b.toNat / 100 ∧ tens.toNat = b.toNat / 10 % 10 ∧ ones.toNat = b.toNat % 10 := by
  have hb := b.isLt
  refine ⟨_, _, _, rfl, ?_, ?_, ?_⟩ <;> rw [BitVec.toNat_ofNat] <;> omega

/-- Settles O39: the run of stores is the list of the three digits. -/
theorem bcdStoresThreeDigits : Obligations.BcdStoresThreeDigits := by
  refine fun x => ⟨decodeWord_encodeWord (i := .ldBVx x) rfl, fun s hm => ?_⟩
  obtain ⟨hundreds, tens, ones, hdigits, hh, ht, ho⟩ := exists_bcdDigits_eq (s.reg x)
  have hexec := exec_ldBVx x s
  rw [hdigits] at hexec
  obtain ⟨t, hnext, hread, hpc, hbytes, hframe⟩ := exec_stores hm (by simp) hexec
  exact ⟨t, hnext, hread 0 _ rfl ▸ hh, hread 1 _ rfl ▸ ht, hread 2 _ rfl ▸ ho, hpc, hbytes, hframe⟩

/-! ### Bulk load -/

/-- Settles O41: the registers up to x read memory through I, those above keep their values. -/
theorem loadReadsRegistersInOrder : Obligations.LoadReadsRegistersInOrder := by
  refine fun x => ⟨decodeWord_encodeWord (i := .ldVxMem x) rfl, fun s => ⟨(s.loadRegs x).advance, rfl, ?_, ?_, rfl,
    ((ChangesOnly.refl _ s).loadRegs (by simp) x).setPc (by simp) _⟩⟩
  · intro k hk
    rw [State.advance_reg, State.reg_loadRegs, if_pos hk, State.readI]
  · intro k hk
    rw [State.advance_reg, State.reg_loadRegs, if_neg hk.not_ge]

/-- Settles O42: the store leaves I alone and puts Vk where the load, with the same memory and I, reads Vk. -/
theorem storedRegistersLoadBack : Obligations.StoredRegistersLoadBack := by
  intro x s t u w hm hst hmem hi huw k hk
  obtain ⟨t', hst', hstored, -, -, hframe⟩ := (storeWritesRegistersInOrder x).2 s hm
  obtain rfl : t = t' := Host.Outcome.next.inj (hst.symm.trans hst')
  obtain ⟨w', huw', hloaded, -⟩ := (loadReadsRegistersInOrder x).2 u
  obtain rfl : w = w' := Host.Outcome.next.inj (huw.symm.trans huw')
  have hti : t.i = s.i := hframe .i (by simp)
  calc w.reg k = u.mem.read (dataAddr u.i k.val) := hloaded k hk
    _ = t.mem.read (dataAddr s.i k.val) := by rw [hmem, hi, hti]
    _ = s.reg k := hstored k hk

/-! ### Timers -/

/-- TONE (60_exceptions.md R244) is on exactly while ST is not 0. -/
theorem State.tone_iff (s : State) : s.tone = true ↔ s.st ≠ 0 := by
  simp [State.tone, Nat.pos_iff_ne_zero, ← BitVec.toNat_inj]

/-- Settles O36: one element is written in each, and TONE follows ST. -/
theorem timerInstructionsMoveTheTimers : Obligations.TimerInstructionsMoveTheTimers := fun x =>
  ⟨decodeWord_encodeWord (i := .ldVxDt x) rfl, decodeWord_encodeWord (i := .ldDtVx x) rfl,
    decodeWord_encodeWord (i := .ldStVx x) rfl, fun s =>
    ⟨exec_writes_reg (· = s.dt) rfl rfl,
      ⟨_, rfl, rfl, rfl, ((ChangesOnly.refl _ s).setDt (by simp) _).setPc (by simp) _⟩,
      ⟨_, rfl, rfl, State.tone_iff _, rfl, ((ChangesOnly.refl _ s).setSt (by simp) _).setPc (by simp) _⟩⟩⟩

/-! ### Index arithmetic and glyphs -/

/-- What an instruction that writes I does, said of the value it writes. -/
theorem exec_writes_i {a : Word} {n : Nat} (hi : exec i s = .next (s.setI a).advance) (ha : a.toNat = n) :
    ∃ t, exec i s = .next t ∧ t.i.toNat = n ∧ t.pc = s.pc + 2 ∧ ChangesOnly [.i, .pc] s t :=
  ⟨_, hi, ha, rfl, ((ChangesOnly.refl _ s).setI (by simp) _).setPc (by simp) _⟩

/-- Settles O37: addition of words is addition modulo 65536. -/
theorem addIWrapsAtSixteenBits : Obligations.AddIWrapsAtSixteenBits := fun x =>
  ⟨decodeWord_encodeWord (i := .addIVx x) rfl, fun s =>
    exec_writes_i rfl (by rw [BitVec.toNat_add, zext16_toNat (by decide)])⟩

/-- Settles O38: the largest glyph address is 5 * 15, so it does not wrap. -/
theorem ldFPointsAtTheGlyph : Obligations.LdFPointsAtTheGlyph := fun x =>
  ⟨decodeWord_encodeWord (i := .ldFVx x) rfl, fun s =>
    exec_writes_i rfl (by rw [glyphAddr_toNat, lowNibble_val, Nat.zero_add])⟩

end Sys2Proof.Machine
end

section
/-! SUPPORT. O43: what the Unknown words do (46_unknown.md R210, 60_exceptions.md R226). -/

namespace Sys2Proof.Machine

variable {i : Instr} {s t : State} {es : List Element}

theorem ChangesOnly.reportUnknown (h : ChangesOnly es s t) (hr : .reports ∈ es) (w : Word) :
    ChangesOnly es s (t.reportUnknown w) := by
  intro e he
  cases e with
  | reports => exact absurd hr he
  | _ => exact h _ he

/-- The six Unknown rows (log entry 11) have one meaning, R210's. -/
theorem exec_of_unknownWord? {w : Word} (hw : i.unknownWord? = some w) (s : State) :
    exec i s = .next (s.reportUnknown w).advance := by
  cases i with
  | unknown0 | unknown5 | unknown8 | unknown9 | unknownE | unknownF => cases hw; rfl
  | _ => cases hw

/-- Settles O43: a descriptor carries the word it encodes to, so a word that decodes to one is the word reported. -/
theorem unknownIsReportedAndPassed : Obligations.UnknownIsReportedAndPassed := by
  refine fun w s => ⟨fun i hi => ?_, fun v hv => ?_⟩
  · have hw : i.unknownWord? = some w := by
      simp only [List.mem_cons, List.not_mem_nil, or_false] at hi
      obtain rfl | rfl | rfl | rfl | rfl | rfl := hi <;> rfl
    exact ⟨_, exec_of_unknownWord? hw s, rfl, rfl,
      ((ChangesOnly.refl _ s).reportUnknown (by simp) w).setPc (by simp) _⟩
  · obtain rfl : v = w := (encodeWord_of_unknownWord? hv).symm.trans (encodeWord_decodeWord w)
    exact ⟨rfl, _, exec_of_unknownWord? hv s, rfl⟩

end Sys2Proof.Machine
end

section
/-! SUPPORT. O8 and O10: the schedule's turns, and the core step of the running core (60_exceptions.md R220, R233; log
entries 1, 4, 5). -/

namespace Sys2Proof.Machine

variable {s u : State}

/-- It is the core's turn in `s`: nothing is scheduled, or its turn is scheduled next; `u` is the state at that turn. -/
def CoreMovesNext (s u : State) : Prop :=
  s.env.schedule = [] ∧ u = s ∨ ∃ ts, s.env.schedule = .core :: ts ∧ u = s.setSchedule ts

/-- The state at the core's turn differs from the state before it in the schedule alone. -/
theorem CoreMovesNext.exists_eq_setSchedule (h : CoreMovesNext s u) : ∃ ts, u = s.setSchedule ts := by
  obtain ⟨-, rfl⟩ | ⟨ts, -, rfl⟩ := h
  · exact ⟨u.env.schedule, rfl⟩
  · exact ⟨ts, rfl⟩

/-- The turn of the running core is a core step, recorded, whether it is scheduled or comes by default. -/
theorem CoreMovesNext.step_eq (h : CoreMovesNext s u) (hr : s.run = .running) : step s = coreStep u.touch := by
  obtain ⟨hs, rfl⟩ | ⟨ts, hs, rfl⟩ := h
  · rw [step_unscheduled u hs, unscheduled_running u hr]
  · rw [step_scheduled s .core ts hs]
    exact coreTurn_running (s.setSchedule ts) hr

/-- Settles O8: two bytes decode to the instruction of the word they make, which is the word the core step fetches. -/
theorem stepRunsDecodedInstruction : Obligations.StepRunsDecodedInstruction := by
  intro s u hu
  refine ⟨fun hr => ?_, fun hr ts hs => ?_, rfl⟩
  · rw [CoreMovesNext.step_eq hu hr]
    obtain ⟨ts, rfl⟩ := CoreMovesNext.exists_eq_setSchedule hu
    refine ⟨fun hpc i rest hi => ?_, fun hpc => coreStep_of_pc_gt hpc⟩
    cases hi
    exact coreStep_of_bytes (s := (s.setSchedule ts).touch) hpc rfl rfl
  · obtain ⟨hnil, -⟩ | ⟨ts', hs', rfl⟩ := hu
    · simp [hnil] at hs
    · obtain ⟨-, rfl⟩ := List.cons.inj (hs'.symm.trans hs)
      rw [step_scheduled s .core ts' hs]
      exact coreTurn_idle (s.setSchedule ts') hr

/-- Settles O10: a step is the schedule's next turn; with none left RUN decides. -/
theorem scheduleChoosesTheTurn : Obligations.ScheduleChoosesTheTurn := by
  refine fun s => ⟨fun turn ts => step_scheduled s turn ts, fun hs => ?_, coreTurn_running s, coreTurn_idle s⟩
  rw [step_unscheduled s hs]
  refine ⟨fun hr => ?_, fun x hr => ?_, fun kind addr hr => ?_⟩
  · rw [unscheduled_running s hr]
    exact (coreTurn_running s hr).symm
  · simp [unscheduled, hr]
  · simp [unscheduled, hr]

end Sys2Proof.Machine
end

section
/-! SUPPORT. O45, O50, O51: the frame of every instruction, and what no instruction does to RUN and to DIRTY
(60_exceptions.md R220 to R224, R243). -/

namespace Sys2Proof.Machine

variable {i : Instr} {s t : State}

/-! ### The frame of every instruction -/

/-- Fx33 and Fx55 change memory and PC alone. -/
theorem changesOnly_setMem_advance (s : State) (m : Memory) : ChangesOnly [.mem, .pc] s (s.setMem m).advance :=
  ((ChangesOnly.refl _ s).setMem (by simp) m).setPc (by simp) _

/-- CALL pushes and jumps, or halts (40_control_flow.md R102). -/
theorem exec_call_changesOnly {nnn : Addr12} (h : exec (.call nnn) s = .next t) :
    ChangesOnly [.stack, .sp, .pc, .run] s t := by
  obtain hsp | hsp := s.sp_lt_or_full
  · rw [exec_call_of_lt nnn s hsp] at h
    cases h
    exact ((ChangesOnly.refl _ s).setStack (.inl (by simp)) (.inl (by simp))).setPc (by simp) _
  · rw [exec_call_full nnn s hsp] at h
    cases h
    exact (ChangesOnly.refl _ s).setRun (by simp) _

/-- RET pops and jumps back, or halts (40_control_flow.md R103). -/
theorem exec_ret_changesOnly (h : exec .ret s = .next t) : ChangesOnly [.sp, .pc, .run] s t := by
  obtain hsp | hsp := s.sp.val.eq_zero_or_pos
  · rw [exec_ret_empty s hsp] at h
    cases h
    exact (ChangesOnly.refl _ s).setRun (by simp) _
  · rw [exec_ret_of_pos s hsp] at h
    cases h
    exact ((ChangesOnly.refl _ s).setStack (.inr rfl) (.inl (by simp))).setPc (by simp) _

/-- What an instruction leaves alone: all but the elements that `mayChange` names. -/
theorem exec_changesOnly (h : exec i s = .next t) : ChangesOnly (mayChange i) s t := by
  cases i with
  | cls =>
    cases h
    exact (((ChangesOnly.refl [.fb, .dirty, .pc] s).setFb (by simp) _).setDirty (by simp) _).setPc (by simp) _
  | ret => exact exec_ret_changesOnly h
  | call => exact exec_call_changesOnly h
  | jp | jpV0 => cases h; exact (ChangesOnly.refl [.pc] s).setPc (by simp) _
  | seImm | sneImm | seReg | sneReg | skp | sknp => cases h; exact (ChangesOnly.refl [.pc] s).setPc (by simp) _
  | ldImm | addImm | ldReg | orReg | andReg | xorReg | ldVxDt =>
    cases h; exact ((ChangesOnly.refl [.v, .pc] s).setReg (by simp) _ _).setPc (by simp) _
  | addReg | sub | shr | subn | shl =>
    cases h; exact (((ChangesOnly.refl [.v, .pc] s).setReg (by simp) _ _).setReg (by simp) VF _).setPc (by simp) _
  | ldI | addIVx | ldFVx => cases h; exact ((ChangesOnly.refl [.i, .pc] s).setI (by simp) _).setPc (by simp) _
  | rnd x =>
    cases h
    exact (((ChangesOnly.refl [.v, .draws, .pc] s).setReg (by simp) x _).countDraw (by simp)).setPc (by simp) _
  | drw =>
    cases h
    exact ((((ChangesOnly.refl [.v, .fb, .dirty, .pc] s).setFb (by simp) _).setReg (by simp) VF _).setDirty
      (by simp) _).setPc (by simp) _
  | ldVxK => cases h; exact (ChangesOnly.refl [.run] s).setRun (by simp) _
  | ldDtVx => cases h; exact ((ChangesOnly.refl [.dt, .pc] s).setDt (by simp) _).setPc (by simp) _
  | ldStVx => cases h; exact ((ChangesOnly.refl [.st, .pc] s).setSt (by simp) _).setPc (by simp) _
  | ldBVx x => rw [exec_ldBVx] at h; cases h; exact changesOnly_setMem_advance s _
  | ldMemVx x => rw [exec_ldMemVx] at h; cases h; exact changesOnly_setMem_advance s _
  | ldVxMem x =>
    obtain rfl := Host.Outcome.next.inj h
    exact ((ChangesOnly.refl [.v, .pc] s).loadRegs (by simp) x).setPc (by simp) _
  | unknown0 | unknown5 | unknown8 | unknown9 | unknownE | unknownF =>
    cases h; exact ((ChangesOnly.refl [.reports, .pc] s).reportUnknown (by simp) _).setPc (by simp) _

/-- Settles O50: exec always answers, and the frame follows instruction by instruction. -/
theorem everyInstructionKeepsItsFrame : Obligations.EveryInstructionKeepsItsFrame := by
  intro i s
  obtain ⟨t, h⟩ := exec_answers_next i s
  exact ⟨t, h, exec_changesOnly h⟩

/-! ### RUN -/

/-- Settles O51: RUN is in the frame of every instruction but Fx0A, CALL and RET; CALL and RET change it only where SP
forbids the push or the pop. -/
theorem faultsArePrecise : Obligations.FaultsArePrecise := by
  intro i s t h
  cases i with
  | ldVxK x => cases h; exact .inr (.inl ⟨x, rfl, rfl⟩)
  | call nnn =>
    obtain hsp | hsp := s.sp_lt_or_full
    · rw [exec_call_of_lt nnn s hsp] at h
      cases h
      exact .inl rfl
    · rw [exec_call_full nnn s hsp] at h
      cases h
      exact .inr (.inr (.inl ⟨nnn, rfl, hsp, rfl⟩))
  | ret =>
    obtain hsp | hsp := s.sp.val.eq_zero_or_pos
    · rw [exec_ret_empty s hsp] at h
      cases h
      exact .inr (.inr (.inr ⟨rfl, hsp, rfl⟩))
    · rw [exec_ret_of_pos s hsp] at h
      cases h
      exact .inl rfl
  | _ => exact .inl (exec_changesOnly h .run (by simp [mayChange]))

/-! ### DIRTY -/

/-- 00E0 and Dxyn set DIRTY; it is in the frame of every other instruction. -/
theorem exec_keeps_dirty_true (hd : s.dirty = true) (h : exec i s = .next t) : t.dirty = true := by
  cases i with
  | cls | drw => cases h; rfl
  | _ => exact (exec_changesOnly h .dirty (by simp [mayChange])).trans hd

/-- Settles O45: the acknowledgement sets DIRTY alone, and exec always answers with DIRTY kept. -/
theorem ackRedrawClearsDirty : Obligations.AckRedrawClearsDirty := by
  refine ⟨fun s => ⟨s.setDirty false, rfl, rfl, (ChangesOnly.refl _ s).setDirty (by simp) _⟩, fun i s hd => ?_⟩
  obtain ⟨t, h⟩ := exec_answers_next i s
  exact ⟨t, h, exec_keeps_dirty_true hd h⟩

end Sys2Proof.Machine
end

section
/-! SUPPORT. O35, O44 and O47: key events, ticks and the reset (60_exceptions.md R232, R241, R246). -/

namespace Sys2Proof.Machine

variable {s t : State} {es : List Element} {k : Nat} {p : Bool}

/-! ### The frame of a key event -/

theorem ChangesOnly.setKey (h : ChangesOnly es s t) (hk : .keys ∈ es) (k : Reg) (p : Bool) :
    ChangesOnly es s (t.setKey k p) := by
  intro e he
  cases e with
  | keys => exact absurd hk he
  | _ => exact h _ he

theorem ChangesOnly.note (h : ChangesOnly es s t) (hu : .untouched ∈ es) (c : Bool) : ChangesOnly es s (t.note c) := by
  intro e he
  cases e with
  | untouched => exact absurd hu he
  | _ => exact h _ he

/-! ### Key events -/

theorem perform_key (h : k < 16) (p : Bool) (s : State) : perform (.key k p) s = .next (s.keyEvent ⟨k, h⟩ p) :=
  dif_pos h

theorem perform_key_refused (h : 16 ≤ k) (p : Bool) (s : State) : perform (.key k p) s = .refused (.keyIndex k) :=
  dif_neg h.not_gt

theorem State.getElem_setKey_same (s : State) (h : k < 16) (p : Bool) : (s.setKey ⟨k, h⟩ p).keys[k] = p := by
  simp

theorem State.getElem_setKey_ne (s : State) (h : k < 16) (p : Bool) (j : Reg) (hj : j.val ≠ k) :
    (s.setKey ⟨k, h⟩ p).keys[j] = s.keys[j] := by
  rw [State.keys_setKey, if_neg fun e => hj (congrArg Fin.val e)]

/-- Settles O35: the edge ends the wait and stores the key's number, which fits a byte; any other event only updates
KEYS. -/
theorem keyEventUpdatesOrResumes : Obligations.KeyEventUpdatesOrResumes := by
  refine fun s k p => ⟨fun h x hr hp hk => ?_, fun h hother => ?_, fun h => perform_key_refused h p s⟩
  · subst hp
    rw [perform_key h, State.keyEvent_edge s ⟨k, h⟩ x hr hk]
    refine ⟨_, rfl, s.getElem_setKey_same h true, ?_, rfl, rfl, s.getElem_setKey_ne h true, ?_, ?_⟩
    · have hV : (s.touch.resume x ⟨k, h⟩).reg x = BitVec.ofNat 8 k := State.reg_setReg_same _ x _
      rw [hV, BitVec.toNat_ofNat]
      omega
    · exact sameRegsExcept_setReg s x _
    · exact (((((ChangesOnly.refl _ s).note (by simp) false).setKey (by simp) ⟨k, h⟩ true).setReg (by simp) x _).setPc
        (by simp) _).setRun (by simp) _
  · rw [perform_key h, State.keyEvent_other s ⟨k, h⟩ p hother]
    exact ⟨_, rfl, State.getElem_setKey_same _ h p, State.getElem_setKey_ne _ h p,
      ((ChangesOnly.refl _ s).note (by simp) _).setKey (by simp) _ p⟩

/-! ### Ticks -/

/-- The clamp at zero is that of subtraction on the naturals. -/
theorem countDown_toNat (b : Byte) : (countDown b).toNat = b.toNat - 1 := by
  unfold countDown
  split <;> bv_omega

/-- Settles O44: both timers count down, from every state. -/
theorem tickCountsBothTimersDown : Obligations.TickCountsBothTimersDown := by
  refine fun s => ⟨s.tick, rfl, ?_, ?_, ((ChangesOnly.refl _ s).setDt (by simp) _).setSt (by simp) _⟩
  · rw [State.tick_dt, countDown_toNat]; split <;> omega
  · rw [State.tick_st, countDown_toNat]; split <;> omega

/-! ### Reset -/

/-- Settles O47: the host's reset reads nothing of the state but the step's parameters. -/
theorem resetReplacesTheWholeState : Obligations.ResetReplacesTheWholeState := fun _ => rfl

end Sys2Proof.Machine
end

section
/-! SUPPORT. O60: the record that something has happened since the last reset (60_exceptions.md R245; log entry 5). -/

namespace Sys2Proof.Machine

variable {i : Instr} {s t : State} {turn : Turn} {rom : List Byte}

/-! ### What each turn does to the record -/

/-- No instruction names the record in its rule. -/
theorem exec_keeps_untouched (h : exec i s = .next t) : t.env.untouched = s.env.untouched :=
  exec_changesOnly h .untouched (by cases i <;> simp [mayChange])

theorem coreStep_keeps_untouched (h : coreStep s = .next t) : t.env.untouched = s.env.untouched := by
  unfold coreStep at h
  split at h
  · exact exec_keeps_untouched h
  · cases h; rfl

/-- A core step is recorded. -/
theorem perform_core_untouched (hr : s.run = .running) (h : perform .core s = .next t) : t.env.untouched = false :=
  coreStep_keeps_untouched ((coreTurn_running s hr).symm.trans h)

/-- A key event is recorded exactly when it changes its key, whether it ends a wait or not. -/
theorem State.keyEvent_untouched (s : State) (k : Reg) (p : Bool) :
    (s.keyEvent k p).env.untouched = (s.keys[k] == p && s.env.untouched) := by
  unfold State.keyEvent
  cases s.run with
  | awaitingKey x => dsimp only; split <;> rfl
  | running | halted => rfl

/-- A key event that the port takes is that of one of the sixteen keys. -/
theorem keyPort_next {k : Nat} {p : Bool} (h : keyPort k p s = .next t) : ∃ hk : k < 16, t = s.keyEvent ⟨k, hk⟩ p := by
  unfold keyPort at h
  split at h
  next hk => exact ⟨hk, (Host.Outcome.next.inj h).symm⟩
  next => cases h

/-- A load that is taken and fits changes memory alone. -/
theorem loadPort_next (h : loadPort rom s = .next t) : s.atReset = true ∧ t = s.placeRom rom := by
  unfold loadPort at h
  split at h
  next hreset =>
    split at h
    · exact ⟨hreset, (Host.Outcome.next.inj h).symm⟩
    · cases h
  next => cases h

theorem loadPort_of_touched (hu : s.env.untouched = false) (rom : List Byte) :
    loadPort rom s = .refused .loadNotAtReset := by
  simp [loadPort, State.atReset, hu]

/-- Once set, the record stays through every turn but a reset. -/
theorem perform_keeps_touched (hu : s.env.untouched = false) (hturn : turn ≠ .reset) (h : perform turn s = .next t) :
    t.env.untouched = false := by
  cases turn with
  | core =>
    by_cases hr : s.run = .running
    · exact perform_core_untouched hr h
    · cases (coreTurn_idle s hr).symm.trans h
      exact hu
  | tick => cases h; exact hu
  | key k p =>
    obtain ⟨hk, rfl⟩ := keyPort_next h
    rw [State.keyEvent_untouched, hu, Bool.and_false]
  | ackRedraw => cases h; exact hu
  | load rom => cases (loadPort_of_touched hu rom).symm.trans h
  | reset => exact absurd rfl hturn

/-- Settles O60: core steps and changed keys are recorded, the record stays, and the port asks for it. -/
theorem loadIsRefusedOnceTouched : Obligations.LoadIsRefusedOnceTouched := by
  refine ⟨fun s t => perform_core_untouched, fun s t k p hk hne h => ?_, fun turn s t => perform_keeps_touched,
    fun s rom hu => loadPort_of_touched hu rom⟩
  cases (perform_key hk p s).symm.trans h
  rw [State.keyEvent_untouched, Bool.and_eq_false_imp]
  exact fun hkey => absurd (eq_of_beq hkey) hne

end Sys2Proof.Machine
end

section
/-! SUPPORT. O11, O48, O49: the stop points, and ST of a core that is not running (60_exceptions.md R231 to R236, R247). -/

namespace Sys2Proof.Machine

variable {s t : State} {turn : Turn} {kind : FaultKind} {addr : Word}

/-! ### A spin stop -/

/-- At a spin stop the core step is the jump to where PC already stands. -/
theorem SpinStop.coreStep_eq {a : Addr12} (h : SpinStop a s) (ha : a.toNat ≤ 0xFFE) : coreStep s = .next s := by
  obtain ⟨-, hpc, hfetch⟩ := h
  have hpcNat : s.pc.toNat = a.toNat := hpc ▸ zext16_toNat (by decide) a
  have hword : decodeWord (s.mem.read s.pc.toNat ++ s.mem.read (s.pc.toNat + 1)) = .jp a := by
    rw [hpcNat]
    exact (congrArg decodeWord hfetch).trans (decodeWord_encodeWord (i := .jp a) rfl)
  rw [coreStep_of_bytes (hpcNat.trans_le ha) rfl rfl, hword]
  exact congrArg Host.Outcome.next (congrArg s.setPc hpc.symm)

/-- The record and the timers are no part of a spin stop. -/
theorem SpinStop.after_perform {a : Addr12} (h : SpinStop a s) (ha : a.toNat ≤ 0xFFE)
    (hturn : turn = .core ∨ turn = .tick) (ht : perform turn s = .next t) : SpinStop a t := by
  obtain rfl | rfl := hturn
  · have htouch : SpinStop a s.touch := h
    have hstep : perform .core s = .next s.touch := (coreTurn_running s h.1).trans (htouch.coreStep_eq ha)
    cases hstep.symm.trans ht
    exact htouch
  · cases ht
    exact h

/-! ### A core that is not running -/

/-- A turn that starts no core: no reset, and no key event while the core waits. -/
def StartsNoCore (turn : Turn) (s : State) : Prop :=
  turn ≠ .reset ∧ ((∃ x, s.run = .awaitingKey x) → ¬ IsKeyEvent turn)

/-- A turn that starts no core leaves a core that is not running as it is, and only the tick counts its ST down. -/
theorem perform_idle (hr : s.run ≠ .running) (hturn : StartsNoCore turn s) (h : perform turn s = .next t) :
    t.run = s.run ∧ t.env.schedule = s.env.schedule ∧ t.st = if turn = .tick then countDown s.st else s.st := by
  cases turn with
  | core => cases (coreTurn_idle s hr).symm.trans h; exact ⟨rfl, rfl, rfl⟩
  | tick => cases h; exact ⟨rfl, rfl, rfl⟩
  | key k p =>
    obtain ⟨hk, rfl⟩ := keyPort_next h
    rw [State.keyEvent_other s ⟨k, hk⟩ p fun x hx _ => absurd ⟨k, p, rfl⟩ (hturn.2 ⟨x, hx⟩)]
    exact ⟨rfl, rfl, rfl⟩
  | ackRedraw => cases h; exact ⟨rfl, rfl, rfl⟩
  | load rom => obtain ⟨-, rfl⟩ := loadPort_next h; exact ⟨rfl, rfl, rfl⟩
  | reset => exact absurd rfl hturn.1

/-- Of a halted core only a reset is a start. -/
theorem startsNoCore_of_halted (hr : s.run = .halted kind addr) (hturn : turn ≠ .reset) : StartsNoCore turn s :=
  ⟨hturn, by simp [hr]⟩

/-- What a turn other than a reset does to a halted core. -/
theorem perform_halted (hr : s.run = .halted kind addr) (hturn : turn ≠ .reset) (h : perform turn s = .next t) :
    t.run = .halted kind addr ∧ t.env.schedule = s.env.schedule ∧
      t.st.toNat = s.st.toNat - if turn = .tick then 1 else 0 := by
  obtain ⟨hrun, hschedule, hst⟩ := perform_idle (by simp [hr]) (startsNoCore_of_halted hr hturn) h
  refine ⟨hrun.trans hr, hschedule, ?_⟩
  rw [hst]
  split
  · exact countDown_toNat s.st
  · rfl

/-- A wait stop lasts through the turns left in its schedule, none of which is a key event. -/
theorem WaitStop.after_step (h : WaitStop s) (hreset : ∀ ts, s.env.schedule ≠ .reset :: ts) (ht : step s = .next t) :
    WaitStop t ∧ t.run = s.run := by
  obtain ⟨⟨x, hx⟩, hkeys⟩ := h
  cases hs : s.env.schedule with
  | nil => simp [step_unscheduled s hs, unscheduled, hx] at ht
  | cons turn ts =>
    rw [step_scheduled s turn ts hs] at ht
    have hturn : turn ≠ .reset := fun e => hreset ts (e ▸ hs)
    obtain ⟨hrun, hschedule, -⟩ := perform_idle (s := s.setSchedule ts) (by simp [State.setSchedule, hx])
      ⟨hturn, fun _ => hkeys turn (by simp [hs])⟩ ht
    refine ⟨⟨⟨x, hrun.trans hx⟩, fun u hu => hkeys u ?_⟩, hrun⟩
    rw [hschedule] at hu
    rw [hs]
    exact List.mem_cons_of_mem turn hu

/-- Settles O11: the spin stop by its jump, the other two by what a core that is not running keeps. -/
theorem stopPointsLast : Obligations.StopPointsLast :=
  ⟨fun _ _ h ha => ⟨h.coreStep_eq ha, fun _ _ => h.after_perform ha⟩,
    fun _ _ _ _ _ hr hturn h => (perform_halted hr hturn h).1,
    fun _ _ => WaitStop.after_step⟩

/-! ### A halted core's tone -/

theorem State.tone_eq_false_iff (s : State) : s.tone = false ↔ s.st.toNat = 0 := by
  simp [State.tone]

theorem run_succ_of_step (h : step s = .next t) (n : Nat) : core.run (n + 1) s = core.run n t := by
  have hcore : core.step s = .next t := h
  simp only [Host.Core.run, hcore]

/-- Turns of O48's schedules: ticks, turns of the core, acknowledgements, and events of the sixteen keys. -/
def PassesWhileHalted (turn : Turn) : Prop :=
  turn = .tick ∨ turn = .core ∨ turn = .ackRedraw ∨ ∃ k p, turn = .key k p ∧ k < 16

/-- A halted core's machine takes each of these turns, and none is a reset. -/
theorem PassesWhileHalted.perform_next (h : PassesWhileHalted turn) (hr : s.run = .halted kind addr) :
    turn ≠ .reset ∧ ∃ t, perform turn s = .next t := by
  obtain rfl | rfl | rfl | ⟨k, p, rfl, hk⟩ := h
  · exact ⟨nofun, _, rfl⟩
  · exact ⟨nofun, s, coreTurn_idle s (by simp [hr])⟩
  · exact ⟨nofun, _, rfl⟩
  · exact ⟨nofun, _, perform_key hk p s⟩

/-- Such a schedule runs to its end, and ST is less by its ticks. -/
theorem run_halted (ts : List Turn) (hs : s.env.schedule = ts) (hr : s.run = .halted kind addr)
    (hts : ∀ turn ∈ ts, PassesWhileHalted turn) :
    ∃ t, core.run ts.length s = .next t ∧ t.st.toNat = s.st.toNat - ts.count .tick ∧ t.run = .halted kind addr := by
  induction ts generalizing s with
  | nil => exact ⟨s, rfl, rfl, hr⟩
  | cons turn ts ih =>
    obtain ⟨hturn, hrest⟩ := List.forall_mem_cons.mp hts
    obtain ⟨hreset, t, ht⟩ := hturn.perform_next (s := s.setSchedule ts) hr
    obtain ⟨hrun, hschedule, hst⟩ := perform_halted (s := s.setSchedule ts) hr hreset ht
    obtain ⟨u, hu, hust, hurun⟩ := ih hschedule hrun hrest
    refine ⟨u, ?_, ?_, hurun⟩
    · rw [List.length_cons, run_succ_of_step ((step_scheduled s turn ts hs).trans ht), hu]
    · rw [hust, hst, List.count_cons, Nat.sub_sub, Nat.add_comm]
      simp [State.setSchedule]

/-- Settles O48: with at least ST ticks nothing of ST is left. -/
theorem toneEndsWhileHalted : Obligations.ToneEndsWhileHalted := by
  intro s kind addr hr hts hst
  obtain ⟨t, ht, htst, hrun⟩ := run_halted _ rfl hr hts
  exact ⟨t, ht, t.tone_eq_false_iff.mpr (htst.trans (Nat.sub_eq_zero_of_le hst)), hrun⟩

/-! ### Fair executions -/

section HaltedFrom

variable {e : Execution} {n : Nat} (hr : (e.state n).run = .halted kind addr) (hreset : ∀ m, n ≤ m → e.turn m ≠ .reset)

include hr hreset

/-- With no reset from moment n on, a core halted then stays halted. -/
theorem Execution.stays_halted {m : Nat} (hm : n ≤ m) : (e.state m).run = .halted kind addr := by
  induction m, hm using Nat.le_induction with
  | base => exact hr
  | succ m hm ih => exact (perform_halted ih (hreset m hm) (e.stepped m)).1

theorem Execution.st_succ {m : Nat} (hm : n ≤ m) :
    (e.state (m + 1)).st.toNat = (e.state m).st.toNat - if e.turn m = .tick then 1 else 0 :=
  (perform_halted (e.stays_halted hr hreset hm) (hreset m hm) (e.stepped m)).2.2

theorem Execution.st_antitone {m k : Nat} (hm : n ≤ m) (hk : m ≤ k) :
    (e.state k).st.toNat ≤ (e.state m).st.toNat := by
  induction k, hk using Nat.le_induction with
  | base => exact le_rfl
  | succ k hk ih =>
    rw [e.st_succ hr hreset (hm.trans hk)]
    exact (Nat.sub_le _ _).trans ih

/-- Under fair ticks ST reaches 0, by induction on a bound of ST: the next tick makes it smaller. -/
theorem Execution.exists_st_eq_zero (hfair : TickFair e) (b : Nat) {m : Nat} (hm : n ≤ m)
    (hst : (e.state m).st.toNat ≤ b) : ∃ k, n ≤ k ∧ (e.state k).st.toNat = 0 := by
  induction b generalizing m with
  | zero => exact ⟨m, hm, Nat.le_zero.mp hst⟩
  | succ b ih =>
    obtain ⟨k, hk, htick⟩ := hfair m
    have hle := e.st_antitone hr hreset hm hk
    have hsucc := e.st_succ hr hreset (hm.trans hk)
    rw [if_pos htick] at hsucc
    exact ih (m := k + 1) (by omega) (by omega)

end HaltedFrom

/-- Settles O49: once ST is 0 it stays 0. -/
theorem fairTicksSilenceAHaltedCore : Obligations.FairTicksSilenceAHaltedCore := by
  intro e n kind addr hfair hr hreset
  obtain ⟨m, hm, hst⟩ := e.exists_st_eq_zero hr hreset hfair _ le_rfl le_rfl
  refine ⟨m, hm, fun k hk => (State.tone_eq_false_iff _).mpr (Nat.le_zero.mp ?_)⟩
  exact hst ▸ e.st_antitone hr hreset hm hk

end Sys2Proof.Machine
end

section
/-! SUPPORT. O46: the Load port, and what is launched (60_exceptions.md R245; 20_memory.md R54, R68;
70_reset_and_hazards.md R264). -/

namespace Sys2Proof.Machine

variable {s : State} {rom : List Byte}

/-! ### The three answers of the port -/

theorem loadPort_of_fits (hreset : s.atReset = true) (hfits : rom.length ≤ 3584) :
    loadPort rom s = .next (s.placeRom rom) :=
  (if_pos hreset).trans (if_pos hfits)

theorem loadPort_of_tooLong (hreset : s.atReset = true) (hlong : 3584 < rom.length) :
    loadPort rom s = .fault (.loadFault rom.length) :=
  (if_pos hreset).trans (if_neg hlong.not_ge)

/-- Load is refused after a recorded transition and on a state other than the reset state. -/
theorem loadPort_refused (h : s.env.untouched = false ∨ s.setEnv Env.reset ≠ State.reset) (rom : List Byte) :
    loadPort rom s = .refused .loadNotAtReset := by
  refine if_neg fun hreset => ?_
  obtain ⟨hu, heq⟩ := s.atReset_iff.mp hreset
  obtain htouched | hne := h
  · exact Bool.noConfusion (hu.symm.trans htouched)
  · exact hne heq

/-! ### Memory after a ROM is placed -/

theorem State.read_placeRom (hm : s.mem.wf) (hfits : rom.length ≤ 3584) (a : Nat) :
    (s.placeRom rom).mem.read a =
      if h : 0x200 ≤ a ∧ a < 0x200 + rom.length then rom[a - 0x200]'(by omega) else s.mem.read a :=
  Memory.read_writeBytes s.mem hm 0x200 rom (Nat.add_le_add_left hfits 0x200) a

theorem State.read_placeRom_rom (hm : s.mem.wf) (hfits : rom.length ≤ 3584) (i : Nat) (hi : i < rom.length) :
    (s.placeRom rom).mem.read (0x200 + i) = rom[i] := by
  rw [State.read_placeRom hm hfits, dif_pos ⟨Nat.le_add_right _ _, Nat.add_lt_add_left hi _⟩]
  simp only [Nat.add_sub_cancel_left]

theorem State.placeRom_sameBytesExcept (hm : s.mem.wf) (hfits : rom.length ≤ 3584) :
    SameBytesExcept ((List.range rom.length).map (0x200 + ·)) s (s.placeRom rom) := by
  intro a ha
  rw [State.read_placeRom hm hfits, dif_neg]
  rintro ⟨hlo, hhi⟩
  exact ha (List.mem_map.mpr ⟨a - 0x200, List.mem_range.mpr (by omega), by omega⟩)

theorem State.placeRom_changesOnly (s : State) (rom : List Byte) : ChangesOnly [.mem] s (s.placeRom rom) :=
  (ChangesOnly.refl _ s).setMem (by simp) _

/-- The reset state lists no cell. -/
theorem State.mem_wf_of_atReset (h : s.atReset = true) : s.mem.wf := by
  have hmem : s.mem = [] := congrArg State.mem (s.atReset_iff.mp h).2
  exact hmem ▸ Memory.wf_nil

/-! ### Launches -/

theorem State.reset_atReset : State.reset.atReset = true := State.reset.atReset_iff.mpr ⟨rfl, rfl⟩

theorem exists_launched_iff (turns : List Turn) : (∃ u, Launched rom turns u) ↔ rom.length ≤ 3584 := by
  constructor
  · rintro ⟨u, t, hload, -⟩
    by_contra hlong
    cases (loadPort_of_tooLong State.reset_atReset (Nat.lt_of_not_le hlong)).symm.trans hload
  · exact fun hfits => ⟨_, _, loadPort_of_fits State.reset_atReset hfits, rfl, rfl, rfl⟩

/-- Settles O46: the port's three answers, and the bytes of memory after a ROM that fits. -/
theorem loadPlacesAllOrFaults : Obligations.LoadPlacesAllOrFaults := by
  refine fun s rom => ⟨fun hu heq => ?_, fun h => loadPort_refused h rom, exists_launched_iff⟩
  have hreset : s.atReset = true := s.atReset_iff.mpr ⟨hu, heq⟩
  have hm := State.mem_wf_of_atReset hreset
  exact ⟨fun hfits => ⟨_, loadPort_of_fits hreset hfits, State.read_placeRom_rom hm hfits,
    State.placeRom_sameBytesExcept hm hfits, s.placeRom_changesOnly rom⟩, loadPort_of_tooLong hreset⟩

end Sys2Proof.Machine
end
